-- ==== Sys2Proof/Word.lean ====
section
/-!
DEFINITION. The word types of the CHIP-8 core (spec/00_scope.md R7, R8): unsigned bit vectors, bit 0 the least
significant. Nothing is computed here; bit fields and byte order are in Decode.lean.
-/

namespace Sys2Proof

/-- A byte, the spec's `u8`: a general register, a memory byte (R8). -/
abbrev Byte := BitVec 8

/-- A 16-bit value, the spec's `u16`: an instruction word, a pair of bytes in memory (R8, R54). -/
abbrev Word := BitVec 16

/-- A 4-bit field of an instruction (R72), also a key index 0..15. -/
abbrev Nibble := BitVec 4

/-- A register index, 0..15: every 4-bit field names a register (R20). -/
abbrev Reg := BitVec 4

/-- The 12-bit field `nnn` of an instruction (R72). -/
abbrev Addr12 := BitVec 12

end Sys2Proof
end

