-- ==== Sys2Proof/Syntax.lean ====
section
/-!
DEFINITION. The instruction set as syntax: one constructor per row of spec/opcode_table.json (spec/30_encoding.md R75),
the four no-op rows among them (R77). A constructor carries EVERY bit of its word that the opcode does not fix, the bits
the decoder ignores too (R76), so that a word and an instruction determine each other (log entry 14).
-/

namespace Sys2Proof

/-- An instruction. `x`, `y`: register fields; `n`, `kk`, `nnn`: immediates; names starting with `_` are ignored bits. -/
inductive Instr where
  /-- `0.E0` CLS, clear screen (R200). -/
  | cls (_x : Nibble)
  /-- `0.EE` RET, return from subroutine (R130). -/
  | ret (_x : Nibble)
  /-- `1nnn` JP nnn (R131). -/
  | jp (nnn : Addr12)
  /-- `2nnn` CALL nnn (R132). -/
  | call (nnn : Addr12)
  /-- `3xkk` SE Vx, kk (R133). -/
  | seImm (x : Reg) (kk : Byte)
  /-- `4xkk` SNE Vx, kk (R134). -/
  | sneImm (x : Reg) (kk : Byte)
  /-- `5xy.` SE Vx, Vy (R135). -/
  | seReg (x y : Reg) (_n : Nibble)
  /-- `6xkk` LD Vx, kk (R152). -/
  | ldImm (x : Reg) (kk : Byte)
  /-- `7xkk` ADD Vx, kk (R153). -/
  | addImm (x : Reg) (kk : Byte)
  /-- `8xy0` MOV Vx, Vy (R154). -/
  | movReg (x y : Reg)
  /-- `8xy1` OR Vx, Vy (R155). -/
  | orReg (x y : Reg)
  /-- `8xy2` AND Vx, Vy (R156). -/
  | andReg (x y : Reg)
  /-- `8xy3` XOR Vx, Vy (R157). -/
  | xorReg (x y : Reg)
  /-- `8xy4` ADD Vx, Vy (R158). -/
  | addReg (x y : Reg)
  /-- `8xy5` SUB Vx, Vy (R159). -/
  | subReg (x y : Reg)
  /-- `8x.6` SHR Vx (R160). -/
  | shr (x : Reg) (_y : Nibble)
  /-- `8xy7` SUBB Vx, Vy (R161). -/
  | subbReg (x y : Reg)
  /-- `8x.E` SHL Vx (R162). -/
  | shl (x : Reg) (_y : Nibble)
  /-- `9xy.` SNE Vx, Vy (R136). -/
  | sneReg (x y : Reg) (_n : Nibble)
  /-- `Annn` LD I, nnn (R180). -/
  | ldI (nnn : Addr12)
  /-- `Bnnn` JP V0, nnn (R137). -/
  | jpV0 (nnn : Addr12)
  /-- `Cxkk` RND Vx, kk (R163). -/
  | rnd (x : Reg) (kk : Byte)
  /-- `Dxyn` DRW Vx, Vy, n (R201). -/
  | drw (x y : Reg) (n : Nibble)
  /-- `Ex9E` SKP Vx (R230). -/
  | skp (x : Reg)
  /-- `ExA1` SKNP Vx (R231). -/
  | sknp (x : Reg)
  /-- `Fx07` LD Vx, DT (R232). -/
  | ldVxDT (x : Reg)
  /-- `Fx0A` LD Vx, K (R235, R236). -/
  | ldVxK (x : Reg)
  /-- `Fx15` LD DT, Vx (R233). -/
  | ldDTVx (x : Reg)
  /-- `Fx18` LD ST, Vx (R234). -/
  | ldSTVx (x : Reg)
  /-- `Fx1E` ADD I, Vx (R182). -/
  | addI (x : Reg)
  /-- `Fx29` LD F, Vx (R183). -/
  | ldF (x : Reg)
  /-- `Fx33` LD B, Vx (R184). -/
  | ldB (x : Reg)
  /-- `Fx55` LD [I], Vx (R185). -/
  | storeRegs (x : Reg)
  /-- `Fx65` LD Vx, [I] (R186). -/
  | loadRegs (x : Reg)
  /-- `0.kk`, kk not E0 or EE: no-op (R77, R108). -/
  | noop0 (x : Nibble) (kk : Byte)
  /-- `8xyn`, n in 8..D or F: no-op (R77, R108). -/
  | noop8 (x y n : Nibble)
  /-- `Exkk`, kk not 9E or A1: no-op (R77, R108). -/
  | noopE (x : Nibble) (kk : Byte)
  /-- `Fxkk`, kk none of the nine of class F: no-op (R77, R108). -/
  | noopF (x : Nibble) (kk : Byte)
  deriving DecidableEq, Repr

/-- The instruction is one of the four no-op rows. -/
def Instr.isNoOp : Instr → Bool
  | .noop0 _ _ | .noop8 _ _ _ | .noopE _ _ | .noopF _ _ => true
  | .cls _ | .ret _ | .jp _ | .call _ | .seImm _ _ | .sneImm _ _ | .seReg _ _ _ | .ldImm _ _ | .addImm _ _
  | .movReg _ _ | .orReg _ _ | .andReg _ _ | .xorReg _ _ | .addReg _ _ | .subReg _ _ | .shr _ _ | .subbReg _ _
  | .shl _ _ | .sneReg _ _ _ | .ldI _ | .jpV0 _ | .rnd _ _ | .drw _ _ _ | .skp _ | .sknp _ | .ldVxDT _ | .ldVxK _
  | .ldDTVx _ | .ldSTVx _ | .addI _ | .ldF _ | .ldB _ | .storeRegs _ | .loadRegs _ => false

end Sys2Proof
end

