-- ==== Sys2Proof/WellFormed.lean ====
section
/-!
DEFINITION. Which terms of `Instr` are instructions. Every field has exactly its width, so the only checks are those of
the no-op rows (spec/30_encoding.md R77): a no-op's selector is none of the operations' selectors in its class.
-/

namespace Sys2Proof

/-- The sub-opcodes `kk` of class 0 (R75). -/
def class0Ops : List Byte := [0xE0#8, 0xEE#8]

/-- The sub-opcodes `n` of class 8 (R75). -/
def class8Ops : List Nibble := [0x0#4, 0x1#4, 0x2#4, 0x3#4, 0x4#4, 0x5#4, 0x6#4, 0x7#4, 0xE#4]

/-- The sub-opcodes `kk` of class E (R75). -/
def classEOps : List Byte := [0x9E#8, 0xA1#8]

/-- The sub-opcodes `kk` of class F (R75). -/
def classFOps : List Byte := [0x07#8, 0x0A#8, 0x15#8, 0x18#8, 0x1E#8, 0x29#8, 0x33#8, 0x55#8, 0x65#8]

/-- A term of `Instr` is well formed: a no-op's selector lies in the no-op space of R77. -/
def WellFormed : Instr → Bool
  | .noop0 _ kk => !class0Ops.contains kk
  | .noop8 _ _ n => !class8Ops.contains n
  | .noopE _ kk => !classEOps.contains kk
  | .noopF _ kk => !classFOps.contains kk
  | .cls _ | .ret _ | .jp _ | .call _ | .seImm _ _ | .sneImm _ _ | .seReg _ _ _ | .ldImm _ _ | .addImm _ _
  | .movReg _ _ | .orReg _ _ | .andReg _ _ | .xorReg _ _ | .addReg _ _ | .subReg _ _ | .shr _ _ | .subbReg _ _
  | .shl _ _ | .sneReg _ _ _ | .ldI _ | .jpV0 _ | .rnd _ _ | .drw _ _ _ | .skp _ | .sknp _ | .ldVxDT _ | .ldVxK _
  | .ldDTVx _ | .ldSTVx _ | .addI _ | .ldF _ | .ldB _ | .storeRegs _ | .loadRegs _ => true

end Sys2Proof
end

