-- ==== Sys2Proof/Decode.lean ====
section
/-!
DEFINITION. The decoder and the encoder (spec/30_encoding.md R70 to R77). Byte order and bit fields are decided here,
once: a word is two bytes, the high one at the lower address (R71; spec/20_memory.md R54).
-/

namespace Sys2Proof

/-- The byte `v[15:8]`, at the lower address (spec/20_memory.md R54). -/
def highByte (w : Word) : Byte := w.extractLsb' 8 8

/-- The byte `v[7:0]`, at the higher address (spec/20_memory.md R54). -/
def lowByte (w : Word) : Byte := w.extractLsb' 0 8

/-- The pair `hi : lo` as one 16-bit value (spec/20_memory.md R54). -/
def joinBytes (hi lo : Byte) : Word := hi ++ lo

/-- Field `c`, bits 15:12, the opcode class (R72). -/
def fieldC (w : Word) : Nibble := w.extractLsb' 12 4

/-- Field `x`, bits 11:8 (R72). -/
def fieldX (w : Word) : Nibble := w.extractLsb' 8 4

/-- Field `y`, bits 7:4 (R72). -/
def fieldY (w : Word) : Nibble := w.extractLsb' 4 4

/-- Field `n`, bits 3:0 (R72). -/
def fieldN (w : Word) : Nibble := w.extractLsb' 0 4

/-- Field `nnn`, bits 11:0 (R72). -/
def fieldNNN (w : Word) : Addr12 := w.extractLsb' 0 12

/-- Field `kk`, bits 7:0 (R72). -/
def fieldKK (w : Word) : Byte := w.extractLsb' 0 8

/-- Class 0: `kk` selects (R75). -/
def decodeClass0 (x : Nibble) (kk : Byte) : Instr :=
  if kk = 0xE0#8 then .cls x
  else if kk = 0xEE#8 then .ret x
  else .noop0 x kk

/-- Class 8: `n` selects (R75). -/
def decodeClass8 (x y n : Nibble) : Instr :=
  if n = 0x0#4 then .movReg x y
  else if n = 0x1#4 then .orReg x y
  else if n = 0x2#4 then .andReg x y
  else if n = 0x3#4 then .xorReg x y
  else if n = 0x4#4 then .addReg x y
  else if n = 0x5#4 then .subReg x y
  else if n = 0x6#4 then .shr x y
  else if n = 0x7#4 then .subbReg x y
  else if n = 0xE#4 then .shl x y
  else .noop8 x y n

/-- Class E: `kk` selects (R75). -/
def decodeClassE (x : Nibble) (kk : Byte) : Instr :=
  if kk = 0x9E#8 then .skp x
  else if kk = 0xA1#8 then .sknp x
  else .noopE x kk

/-- Class F: `kk` selects (R75). -/
def decodeClassF (x : Nibble) (kk : Byte) : Instr :=
  if kk = 0x07#8 then .ldVxDT x
  else if kk = 0x0A#8 then .ldVxK x
  else if kk = 0x15#8 then .ldDTVx x
  else if kk = 0x18#8 then .ldSTVx x
  else if kk = 0x1E#8 then .addI x
  else if kk = 0x29#8 then .ldF x
  else if kk = 0x33#8 then .ldB x
  else if kk = 0x55#8 then .storeRegs x
  else if kk = 0x65#8 then .loadRegs x
  else .noopF x kk

/-- The decoder: total and pure (R74), class first, then the sub-opcode of classes 0, 8, E and F (R75). -/
def decodeWord (w : Word) : Instr :=
  if fieldC w = 0x0#4 then decodeClass0 (fieldX w) (fieldKK w)
  else if fieldC w = 0x1#4 then .jp (fieldNNN w)
  else if fieldC w = 0x2#4 then .call (fieldNNN w)
  else if fieldC w = 0x3#4 then .seImm (fieldX w) (fieldKK w)
  else if fieldC w = 0x4#4 then .sneImm (fieldX w) (fieldKK w)
  else if fieldC w = 0x5#4 then .seReg (fieldX w) (fieldY w) (fieldN w)
  else if fieldC w = 0x6#4 then .ldImm (fieldX w) (fieldKK w)
  else if fieldC w = 0x7#4 then .addImm (fieldX w) (fieldKK w)
  else if fieldC w = 0x8#4 then decodeClass8 (fieldX w) (fieldY w) (fieldN w)
  else if fieldC w = 0x9#4 then .sneReg (fieldX w) (fieldY w) (fieldN w)
  else if fieldC w = 0xA#4 then .ldI (fieldNNN w)
  else if fieldC w = 0xB#4 then .jpV0 (fieldNNN w)
  else if fieldC w = 0xC#4 then .rnd (fieldX w) (fieldKK w)
  else if fieldC w = 0xD#4 then .drw (fieldX w) (fieldY w) (fieldN w)
  else if fieldC w = 0xE#4 then decodeClassE (fieldX w) (fieldKK w)
  else decodeClassF (fieldX w) (fieldKK w)

/-- Why a byte list is no instruction. Raised by `decode` only; safe, since no word is rejected (R74). -/
inductive DecodeError where
  /-- Fewer than the two bytes of an instruction (R70). -/
  | truncated
  deriving DecidableEq, Repr

/-- Decode the first instruction of a byte list and give back the rest (R70, R71). -/
def decode : List Byte → Except DecodeError (Instr × List Byte)
  | hi :: lo :: rest => .ok (decodeWord (joinBytes hi lo), rest)
  | _ => .error .truncated

/-- A word from its four nibbles `c x y n`, most significant first (R72). -/
def packXYN (c x y n : Nibble) : Word := c ++ x ++ y ++ n

/-- A word from `c`, `x` and `kk` (R72). -/
def packXKK (c x : Nibble) (kk : Byte) : Word := c ++ x ++ kk

/-- A word from `c` and `nnn` (R72). -/
def packNNN (c : Nibble) (nnn : Addr12) : Word := c ++ nnn

/-- The word of an instruction, from the opcode map of R75: class, operands, sub-opcode, most significant first. -/
def encode : Instr → Word
  | .cls x => packXKK 0x0#4 x 0xE0#8
  | .ret x => packXKK 0x0#4 x 0xEE#8
  | .jp nnn => packNNN 0x1#4 nnn
  | .call nnn => packNNN 0x2#4 nnn
  | .seImm x kk => packXKK 0x3#4 x kk
  | .sneImm x kk => packXKK 0x4#4 x kk
  | .seReg x y n => packXYN 0x5#4 x y n
  | .ldImm x kk => packXKK 0x6#4 x kk
  | .addImm x kk => packXKK 0x7#4 x kk
  | .movReg x y => packXYN 0x8#4 x y 0x0#4
  | .orReg x y => packXYN 0x8#4 x y 0x1#4
  | .andReg x y => packXYN 0x8#4 x y 0x2#4
  | .xorReg x y => packXYN 0x8#4 x y 0x3#4
  | .addReg x y => packXYN 0x8#4 x y 0x4#4
  | .subReg x y => packXYN 0x8#4 x y 0x5#4
  | .shr x y => packXYN 0x8#4 x y 0x6#4
  | .subbReg x y => packXYN 0x8#4 x y 0x7#4
  | .shl x y => packXYN 0x8#4 x y 0xE#4
  | .sneReg x y n => packXYN 0x9#4 x y n
  | .ldI nnn => packNNN 0xA#4 nnn
  | .jpV0 nnn => packNNN 0xB#4 nnn
  | .rnd x kk => packXKK 0xC#4 x kk
  | .drw x y n => packXYN 0xD#4 x y n
  | .skp x => packXKK 0xE#4 x 0x9E#8
  | .sknp x => packXKK 0xE#4 x 0xA1#8
  | .ldVxDT x => packXKK 0xF#4 x 0x07#8
  | .ldVxK x => packXKK 0xF#4 x 0x0A#8
  | .ldDTVx x => packXKK 0xF#4 x 0x15#8
  | .ldSTVx x => packXKK 0xF#4 x 0x18#8
  | .addI x => packXKK 0xF#4 x 0x1E#8
  | .ldF x => packXKK 0xF#4 x 0x29#8
  | .ldB x => packXKK 0xF#4 x 0x33#8
  | .storeRegs x => packXKK 0xF#4 x 0x55#8
  | .loadRegs x => packXKK 0xF#4 x 0x65#8
  | .noop0 x kk => packXKK 0x0#4 x kk
  | .noop8 x y n => packXYN 0x8#4 x y n
  | .noopE x kk => packXKK 0xE#4 x kk
  | .noopF x kk => packXKK 0xF#4 x kk

/-- An instruction's two bytes in memory order (R71). -/
def encodeBytes (i : Instr) : List Byte := [highByte (encode i), lowByte (encode i)]

/-- The instruction the decoder reads from the bits `w`, of which the opcode table gives `nbits`: the word's two bytes in
memory order, given to `decode`. -/
def decodeTableWord (nbits w : Nat) : Option Instr :=
  let v : Word := BitVec.ofNat 16 (w % 2 ^ nbits)
  match decode [highByte v, lowByte v] with
  | .ok (i, _) => some i
  | .error _ => none

/-- The row of spec/opcode_table.json an instruction belongs to, by its mnemonic there. -/
def Instr.mnemonic : Instr → String
  | .cls _ => "CLS"
  | .ret _ => "RET"
  | .jp _ => "JP_nnn"
  | .call _ => "CALL_nnn"
  | .seImm _ _ => "SE_Vx__kk"
  | .sneImm _ _ => "SNE_Vx__kk"
  | .seReg _ _ _ => "SE_Vx__Vy"
  | .ldImm _ _ => "LD_Vx__kk"
  | .addImm _ _ => "ADD_Vx__kk"
  | .movReg _ _ => "MOV_Vx__Vy"
  | .orReg _ _ => "OR_Vx__Vy"
  | .andReg _ _ => "AND_Vx__Vy"
  | .xorReg _ _ => "XOR_Vx__Vy"
  | .addReg _ _ => "ADD_Vx__Vy"
  | .subReg _ _ => "SUB_Vx__Vy"
  | .shr _ _ => "SHR_Vx"
  | .subbReg _ _ => "SUBB_Vx__Vy"
  | .shl _ _ => "SHL_Vx"
  | .sneReg _ _ _ => "SNE_Vx__Vy"
  | .ldI _ => "LD_I__nnn"
  | .jpV0 _ => "JP_V0__nnn"
  | .rnd _ _ => "RND_Vx__kk"
  | .drw _ _ _ => "DRW_Vx__Vy__n"
  | .skp _ => "SKP_Vx"
  | .sknp _ => "SKNP_Vx"
  | .ldVxDT _ => "LD_Vx__DT"
  | .ldVxK _ => "LD_Vx__K"
  | .ldDTVx _ => "LD_DT__Vx"
  | .ldSTVx _ => "LD_ST__Vx"
  | .addI _ => "ADD_I__Vx"
  | .ldF _ => "LD_F__Vx"
  | .ldB _ => "LD_B__Vx"
  | .storeRegs _ => "LD__I___Vx"
  | .loadRegs _ => "LD_Vx___I"
  | .noop0 _ _ => "no-op__class_0__kk_not_E0_EE"
  | .noop8 _ _ _ => "no-op__class_8__n_in_8..D__F"
  | .noopE _ _ => "no-op__class_E__kk_not_9E_A1"
  | .noopF _ _ => "no-op__class_F__unmapped_kk"

/-- A row of spec/opcode_table.json: a word matches it when `w &&& mask = pattern`. -/
structure OpcodeRow where
  mnemonic : String
  mask : Word
  pattern : Word
  deriving DecidableEq, Repr

/-- The exact rows of classes 0 to 7, spec/opcode_table.json (R75). -/
def exactRowsLow : List OpcodeRow :=
  [⟨"CLS", 0xF0FF#16, 0x00E0#16⟩,
   ⟨"RET", 0xF0FF#16, 0x00EE#16⟩,
   ⟨"JP_nnn", 0xF000#16, 0x1000#16⟩,
   ⟨"CALL_nnn", 0xF000#16, 0x2000#16⟩,
   ⟨"SE_Vx__kk", 0xF000#16, 0x3000#16⟩,
   ⟨"SNE_Vx__kk", 0xF000#16, 0x4000#16⟩,
   ⟨"SE_Vx__Vy", 0xF000#16, 0x5000#16⟩,
   ⟨"LD_Vx__kk", 0xF000#16, 0x6000#16⟩,
   ⟨"ADD_Vx__kk", 0xF000#16, 0x7000#16⟩]

/-- The exact rows of classes 8 to D, spec/opcode_table.json (R75). -/
def exactRowsMid : List OpcodeRow :=
  [⟨"MOV_Vx__Vy", 0xF00F#16, 0x8000#16⟩,
   ⟨"OR_Vx__Vy", 0xF00F#16, 0x8001#16⟩,
   ⟨"AND_Vx__Vy", 0xF00F#16, 0x8002#16⟩,
   ⟨"XOR_Vx__Vy", 0xF00F#16, 0x8003#16⟩,
   ⟨"ADD_Vx__Vy", 0xF00F#16, 0x8004#16⟩,
   ⟨"SUB_Vx__Vy", 0xF00F#16, 0x8005#16⟩,
   ⟨"SHR_Vx", 0xF00F#16, 0x8006#16⟩,
   ⟨"SUBB_Vx__Vy", 0xF00F#16, 0x8007#16⟩,
   ⟨"SHL_Vx", 0xF00F#16, 0x800E#16⟩,
   ⟨"SNE_Vx__Vy", 0xF000#16, 0x9000#16⟩,
   ⟨"LD_I__nnn", 0xF000#16, 0xA000#16⟩,
   ⟨"JP_V0__nnn", 0xF000#16, 0xB000#16⟩,
   ⟨"RND_Vx__kk", 0xF000#16, 0xC000#16⟩,
   ⟨"DRW_Vx__Vy__n", 0xF000#16, 0xD000#16⟩]

/-- The exact rows of classes E and F, spec/opcode_table.json (R75). -/
def exactRowsHigh : List OpcodeRow :=
  [⟨"SKP_Vx", 0xF0FF#16, 0xE09E#16⟩,
   ⟨"SKNP_Vx", 0xF0FF#16, 0xE0A1#16⟩,
   ⟨"LD_Vx__DT", 0xF0FF#16, 0xF007#16⟩,
   ⟨"LD_Vx__K", 0xF0FF#16, 0xF00A#16⟩,
   ⟨"LD_DT__Vx", 0xF0FF#16, 0xF015#16⟩,
   ⟨"LD_ST__Vx", 0xF0FF#16, 0xF018#16⟩,
   ⟨"ADD_I__Vx", 0xF0FF#16, 0xF01E#16⟩,
   ⟨"LD_F__Vx", 0xF0FF#16, 0xF029#16⟩,
   ⟨"LD_B__Vx", 0xF0FF#16, 0xF033#16⟩,
   ⟨"LD__I___Vx", 0xF0FF#16, 0xF055#16⟩,
   ⟨"LD_Vx___I", 0xF0FF#16, 0xF065#16⟩]

/-- The 34 exact rows. -/
def exactRows : List OpcodeRow := exactRowsLow ++ exactRowsMid ++ exactRowsHigh

/-- The four fallback rows: each matches only a word that no exact row matches (R77). -/
def fallbackRows : List OpcodeRow :=
  [⟨"no-op__class_0__kk_not_E0_EE", 0xF000#16, 0x0000#16⟩,
   ⟨"no-op__class_8__n_in_8..D__F", 0xF000#16, 0x8000#16⟩,
   ⟨"no-op__class_E__kk_not_9E_A1", 0xF000#16, 0xE000#16⟩,
   ⟨"no-op__class_F__unmapped_kk", 0xF000#16, 0xF000#16⟩]

end Sys2Proof
end

