-- ==== Sys2Proof/Config.lean ====
section
/-!
DEFINITION. The environment's moves at the ports (spec/60_exceptions.md R260), and the free values: what the environment
does before each step, the bytes it draws, and what an absent register reads as (log entries 3, 5, 28). The defaults of the parameters of spec/00_scope.md R6 stand in
Machine/Parameters.lean, under the same namespace.
-/

namespace Sys2Proof

/-- The key flags, one a key, `true` when pressed (spec/10_state.md R28); NKEYS of them (R6). -/
abbrev KeyFlags := List Bool

/-- The four ports (spec/60_exceptions.md R260). -/
inductive Port where
  | keyLevel
  | keyEvent
  | sound
  | frame
  deriving DecidableEq, Repr

/-- One act of the environment at a port (spec/60_exceptions.md R260, R261). It has no act on block state. -/
inductive EnvMove where
  /-- Offer a key-level vector; if the port is full, `replace` says whether it is overwritten or the offer dropped. -/
  | offerKeys (flags : KeyFlags) (replace : Bool)
  /-- Deliver a key on the key-event port. -/
  | deliverKey (k : Nat)
  /-- Consume the held sound trigger. -/
  | takeSound
  /-- Consume the oldest held frame. -/
  | takeFrame
  /-- Disconnect a port. -/
  | disconnect (p : Port)
  deriving DecidableEq, Repr

/-- FREE VALUE: the moves the environment makes in its `n`-th turn (log entry 3). -/
opaque Config.envMoves : Nat → List EnvMove

/-- FREE VALUE: the `n`-th byte drawn from the random source (spec/42_register_arith.md R163; log entry 5). -/
opaque Config.randomByte : Nat → Byte

/-- FREE VALUE: what a register whose index is not below NREG reads as (log entry 28). -/
opaque Config.absentRegister : Nat → Byte

end Sys2Proof
end

