-- ==== Sys2Proof/Machine/Parameters.lean ====
section
/-!
DEFINITION. The defaults of the parameters of spec/00_scope.md R6, FONT (spec/20_memory.md R58) among them (log entries 8,
10). The model takes the parameters as arguments: a state carries its own in `Params` of State.lean, and of the machine only
`Params.default` uses these values.
-/

namespace Sys2Proof

/-- `MEM_SIZE`: bytes of memory (R6). -/
def Config.memSize : Nat := 4096

/-- `NREG`: general registers (R6). -/
def Config.nreg : Nat := 16

/-- `I_WIDTH`: bits of the index register (R6). -/
def Config.iWidth : Nat := 16

/-- `PC_WIDTH`: bits of the program counter (R6). -/
def Config.pcWidth : Nat := 16

/-- `SP_WIDTH`: bits of the stack pointer (R6). -/
def Config.spWidth : Nat := 16

/-- `TIMER_WIDTH`: bits of the delay and the sound timer (R6). -/
def Config.timerWidth : Nat := 8

/-- `FB_H`: framebuffer rows (R6). -/
def Config.fbRows : Nat := 32

/-- `FB_W`: framebuffer columns (R6). -/
def Config.fbCols : Nat := 64

/-- `FONT_BASE`: address of glyph 0 (R6). -/
def Config.fontBase : Nat := 0x50

/-- `GLYPH_BYTES`: bytes per glyph (R6). -/
def Config.glyphBytes : Nat := 5

/-- `PROG_BASE`: load address and reset pc (R6). -/
def Config.progBase : Nat := 0x200

/-- `PROG_MAX`: largest program (R6). -/
def Config.progMax : Nat := 3584

/-- `FREQ`: default instructions per second (R6). -/
def Config.freq : Nat := 2000

/-- `FRAME_HZ`: default frames per second (R6). -/
def Config.frameHz : Nat := 60

/-- `IPF`: instruction slots per frame, `floor(FREQ / FRAME_HZ)`, 33 (R6; spec/40_execution_cycle.md R114, decision D13). -/
def Config.ipf : Nat := Config.freq / Config.frameHz

/-- `NKEYS`: keyboard level flags (R6). -/
def Config.nkeys : Nat := 16

/-- `CAP_KEYLEVEL`: capacity of the key-level port (R6). -/
def Config.capKeyLevel : Nat := 1

/-- `CAP_KEYEVENT`: capacity of the key-event port, 0 for a rendezvous (R6). -/
def Config.capKeyEvent : Nat := 0

/-- `CAP_SOUND`: capacity of the sound port (R6). -/
def Config.capSound : Nat := 1

/-- `CAP_FRAME`: capacity of the frame port (R6). -/
def Config.capFrame : Nat := 2

/-- `FONT`, glyphs 0 to 7 (spec/20_memory.md R58). -/
def Config.fontLow : List Byte :=
  [0xF0#8, 0x90#8, 0x90#8, 0x90#8, 0xF0#8] ++ [0x20#8, 0x60#8, 0x20#8, 0x20#8, 0x70#8]
    ++ [0xF0#8, 0x10#8, 0xF0#8, 0x80#8, 0xF0#8] ++ [0xF0#8, 0x10#8, 0xF0#8, 0x10#8, 0xF0#8]
    ++ [0x90#8, 0x90#8, 0xF0#8, 0x10#8, 0x10#8] ++ [0xF0#8, 0x80#8, 0xF0#8, 0x10#8, 0xF0#8]
    ++ [0xF0#8, 0x80#8, 0xF0#8, 0x90#8, 0xF0#8] ++ [0xF0#8, 0x10#8, 0x20#8, 0x40#8, 0x40#8]

/-- `FONT`, glyphs 8 to F (spec/20_memory.md R58). -/
def Config.fontHigh : List Byte :=
  [0xF0#8, 0x90#8, 0xF0#8, 0x90#8, 0xF0#8] ++ [0xF0#8, 0x90#8, 0xF0#8, 0x10#8, 0xF0#8]
    ++ [0xF0#8, 0x90#8, 0xF0#8, 0x90#8, 0x90#8] ++ [0xE0#8, 0x90#8, 0xE0#8, 0x90#8, 0xE0#8]
    ++ [0xF0#8, 0x80#8, 0x80#8, 0x80#8, 0xF0#8] ++ [0xE0#8, 0x90#8, 0x90#8, 0x90#8, 0xE0#8]
    ++ [0xF0#8, 0x80#8, 0xF0#8, 0x80#8, 0xF0#8] ++ [0xF0#8, 0x80#8, 0xF0#8, 0x80#8, 0x80#8]

/-- `FONT`: the 80 glyph bytes. PRESUMED: the conventional table, which the spec gives from general knowledge
(spec/20_memory.md R58, spec/93_implementation_defined.md G1; log entry 10). -/
def Config.font : List Byte := Config.fontLow ++ Config.fontHigh

/-- `VF_LAST`, default (R6; spec/42_register_arith.md R151, decision D5). -/
def Config.vfLast : Bool := true

end Sys2Proof
end

