-- ==== Sys2Proof/Machine/State.lean ====
section
/-!
DEFINITION. The state of the block as plain data (spec/10_state.md), the ports' buffers (spec/60_exceptions.md R260), what
fixes the environment's inputs as data (log entry 4), the reset state (R37) and the reasons a step can stop.
-/

namespace Sys2Proof.Machine

/-- Memory as its cells, in the canonical form `Memory.wf` of Ops.lean; an unlisted address reads as `Memory.initial`. -/
abbrev Memory := List Host.Cell

/-- A framebuffer grid: its rows from row 0, each its pixels from column 0, `true` when on (R29). FB_H rows of FB_W pixels:
`Grid.shaped` of Display.lean. -/
abbrev Grid := List (List Bool)

/-- The four fault kinds (spec/60_exceptions.md R251). -/
inductive FaultKind where
  | memoryOutOfRange
  | keyIndexOutOfRange
  | stackUnderflow
  | indexOverflow
  deriving DecidableEq, Repr

/-- A fault record (R251): kind, address `A` of the instruction, its word (`none` for a fetch fault), info. The record's
code is `FaultKind.code` of its kind. -/
structure FaultRecord where
  kind : FaultKind
  addr : Nat
  word : Option Word
  info : Nat
  deriving DecidableEq, Repr

/-- The run state (R32). -/
inductive RunState where
  | running
  | waitingKey (x : Reg)
  | halted
  | faulted (rec : FaultRecord)
  deriving DecidableEq, Repr

/-- Where the loop of spec/40_execution_cycle.md R101 stands (R115). -/
inductive Phase where
  | frameHead
  | inFrame
  | frameTail
  deriving DecidableEq, Repr

/-- An event of the output trace (R35). -/
inductive Event where
  | frameOut (grid : Grid)
  | sound
  | keyWait (x : Reg)
  | unknownOpcode (addr : Nat) (word : Word)
  deriving DecidableEq, Repr

/-- The parameters (spec/00_scope.md R6), data that no step changes, so that a claim holds for every value of them or names
the values it assumes (log entry 8). -/
structure Params where
  /-- `MEM_SIZE`: bytes of memory. -/
  memSize : Nat
  /-- `NREG`: general registers. -/
  nreg : Nat
  /-- `I_WIDTH`: bits of I. -/
  iWidth : Nat
  /-- `PC_WIDTH`: bits of pc. -/
  pcWidth : Nat
  /-- `SP_WIDTH`: bits of SP. -/
  spWidth : Nat
  /-- `TIMER_WIDTH`: bits of DT and of ST. -/
  timerWidth : Nat
  /-- `NKEYS`: keyboard level flags. -/
  nkeys : Nat
  /-- `FB_W`: framebuffer columns. -/
  fbCols : Nat
  /-- `FB_H`: framebuffer rows. -/
  fbRows : Nat
  /-- `FONT_BASE`: address of glyph 0. -/
  fontBase : Nat
  /-- `GLYPH_BYTES`: bytes per glyph. -/
  glyphBytes : Nat
  /-- `FONT`: the glyph bytes (log entry 10). -/
  font : List Byte
  /-- `PROG_BASE`: load address and reset pc. -/
  progBase : Nat
  /-- `PROG_MAX`: largest program. -/
  progMax : Nat
  /-- `FREQ`, the configured frequency, state of the source's Program/Execution State. -/
  freq : Nat
  /-- `FRAME_HZ`. -/
  frameHz : Nat
  /-- `IPF`: instruction slots per frame (spec/40_execution_cycle.md R114, decision D13). -/
  ipf : Nat
  /-- `VF_LAST`: the flag is written after the result (spec/42_register_arith.md R151). -/
  vfLast : Bool
  /-- `CAP_KEYLEVEL`: keyboard level channel capacity. -/
  capKeyLevel : Nat
  /-- `CAP_KEYEVENT`: single-key channel capacity, 0 for a rendezvous. -/
  capKeyEvent : Nat
  /-- `CAP_SOUND`: sound channel capacity. -/
  capSound : Nat
  /-- `CAP_FRAME`: framebuffer channel capacity. -/
  capFrame : Nat
  deriving DecidableEq, Repr

/-- The ports' buffers and connections (spec/60_exceptions.md R260). -/
structure Ports where
  /-- CAP_KEYLEVEL: the pending key-level vectors, oldest first. -/
  keyLevels : List KeyFlags
  /-- CAP_KEYEVENT, and one more while the block waits: the keys being handed over, oldest first. -/
  keyEvents : List Nat
  /-- CAP_SOUND: how many sound triggers are held. -/
  sound : Nat
  /-- CAP_FRAME: the held frames, oldest first. -/
  frames : List Grid
  keyLevelUp : Bool
  keyEventUp : Bool
  soundUp : Bool
  frameUp : Bool
  deriving DecidableEq, Repr

/-- THE MODEL'S OWN: the environment's inputs that are already fixed, and how many were taken (log entry 4). -/
structure Env where
  /-- The coming turns; when empty a turn is `Config.envMoves turns`. -/
  script : List (List EnvMove)
  turns : Nat
  /-- The coming random bytes; when empty a draw is `Config.randomByte draws`. -/
  bytes : List Byte
  draws : Nat
  deriving DecidableEq, Repr

/-- The state (spec/10_state.md R20 to R38, spec/40_execution_cycle.md R115). The special registers are numbers, as R8 has
them, and their widths are parameters: a write goes through the setters of Ops.lean, which reduce to the width (log entry
9). -/
structure State where
  mem : Memory
  /-- V0 upward, NREG of them (R20). -/
  V : List Byte
  I : Nat
  pc : Nat
  SP : Nat
  DT : Nat
  ST : Nat
  keys : KeyFlags
  fb : Grid
  dirty : Bool
  /-- The byte length of the loaded program (R31). -/
  len : Nat
  run : RunState
  slot : Nat
  phase : Phase
  /-- Oldest event first (R35). -/
  trace : List Event
  params : Params
  ports : Ports
  env : Env
  deriving DecidableEq, Repr

/-- Why a step answers no next state. The spec's own four faults are NOT here: they enter `RunState.faulted` and the step
answers the state that holds the record (log entry 1). -/
inductive Fault where
  /-- Raised by `schedule` (Cycle.lean) in a state that no row of spec/40_execution_cycle.md R115 applies to: waiting for a
  key outside the slots, or more slots used than a frame has. No run reaches such a state; safe (log entry 19). -/
  | noRow
  deriving DecidableEq, Repr

/-- Why an instruction or a load has no meaning. -/
inductive Refusal where
  /-- Raised by an arm of `exec` that has no meaning yet; there is none. Safe. -/
  | notModelled (mnemonic : String)
  /-- Raised by `load` (Load.lean) for a program of more than PROG_MAX bytes (spec/70_reset_and_hazards.md R281): no run is
  created. Never raised by a step. Safe. -/
  | programTooLong (len : Nat)
  deriving DecidableEq, Repr

/-- The parameters' defaults (spec/00_scope.md R6). -/
def Params.default : Params :=
  { memSize := Config.memSize, nreg := Config.nreg, iWidth := Config.iWidth, pcWidth := Config.pcWidth,
    spWidth := Config.spWidth, timerWidth := Config.timerWidth, nkeys := Config.nkeys, fbCols := Config.fbCols, fbRows := Config.fbRows,
    fontBase := Config.fontBase, glyphBytes := Config.glyphBytes, font := Config.font, progBase := Config.progBase,
    progMax := Config.progMax, freq := Config.freq, frameHz := Config.frameHz, ipf := Config.ipf, vfLast := Config.vfLast,
    capKeyLevel := Config.capKeyLevel, capKeyEvent := Config.capKeyEvent, capSound := Config.capSound,
    capFrame := Config.capFrame }

/-- Empty, connected ports. DESIGN CHOICE: the spec states no reset value for them (log entry 6). -/
def Ports.empty : Ports :=
  { keyLevels := [], keyEvents := [], sound := 0, frames := [], keyLevelUp := true, keyEventUp := true, soundUp := true,
    frameUp := true }

/-- No input fixed yet. DESIGN CHOICE: the model's own fields (log entry 4). -/
def Env.free : Env := { script := [], turns := 0, bytes := [], draws := 0 }

/-- A grid of FB_H rows of FB_W pixels, every pixel off. -/
def Grid.blank (p : Params) : Grid := List.replicate p.fbRows (List.replicate p.fbCols false)

/-- The state right after reset (R37; spec/70_reset_and_hazards.md R280) with nothing loaded, so `len = 0`. V, I, DT, ST,
keys, fb and dirty are the spec's decision D15 (log entry 11). -/
def State.reset : State :=
  { mem := []
    V := List.replicate Params.default.nreg 0#8
    I := 0
    pc := Params.default.progBase
    SP := 0
    DT := 0
    ST := 0
    keys := List.replicate Params.default.nkeys false
    fb := Grid.blank Params.default
    dirty := false
    len := 0
    run := .running
    slot := 0
    phase := .frameHead
    trace := []
    params := Params.default
    ports := Ports.empty
    env := Env.free }

end Sys2Proof.Machine
end

