-- ==== Sys2Proof/Machine/Ops.lean ====
section
/-!
DEFINITION. The named operations over memory, registers, ports and trace, and taking a fault (spec/20_memory.md,
spec/10_state.md, spec/60_exceptions.md). Every meaning and the sequencer are written over these.
-/

namespace Sys2Proof.Machine

/-! ### Memory -/

/-- What an unlisted address reads as: the reset contents, `FONT` from FONT_BASE on and 0 elsewhere (spec/10_state.md R37,
spec/20_memory.md R57; log entry 12). -/
def Memory.initial (p : Params) (a : Nat) : Byte :=
  if p.fontBase ≤ a then p.font.getD (a - p.fontBase) 0#8 else 0#8

/-- The byte at an address that passed the range check (spec/20_memory.md R51). -/
def Memory.read (p : Params) : Memory → Nat → Byte
  | [], a => Memory.initial p a
  | (b, v) :: rest, a => if b = a then v else Memory.read p rest a

/-- The cells that say address `a` holds `v`: none when an unlisted address reads as `v`. -/
def Memory.cell (p : Params) (a : Nat) (v : Byte) : List Host.Cell :=
  if v = Memory.initial p a then [] else [(a, v)]

/-- Store a byte at an address that passed the range check (spec/20_memory.md R52), keeping the canonical form. -/
def Memory.write (p : Params) : Memory → Nat → Byte → Memory
  | [], a, v => Memory.cell p a v
  | (b, u) :: rest, a, v =>
    if a < b then Memory.cell p a v ++ (b, u) :: rest
    else if a = b then Memory.cell p a v ++ rest
    else (b, u) :: Memory.write p rest a v

/-- Every cell lies at or above `low`, below MEM_SIZE, in strictly rising order, and differs from the initial byte. -/
def Memory.wfFrom (p : Params) : Nat → Memory → Bool
  | _, [] => true
  | low, (b, u) :: rest =>
    decide (low ≤ b) && decide (b < p.memSize) && decide (u ≠ Memory.initial p b) && Memory.wfFrom p (b + 1) rest

/-- The canonical form of memory. -/
def Memory.wf (p : Params) (m : Memory) : Bool := Memory.wfFrom p 0 m

/-- `count` bytes from `base` upward. -/
def Memory.readBlock (p : Params) (m : Memory) (base : Nat) : Nat → List Byte
  | 0 => []
  | count + 1 => Memory.read p m base :: Memory.readBlock p m (base + 1) count

/-- Store bytes from `base` upward, in ascending order. -/
def Memory.writeBlock (p : Params) (m : Memory) (base : Nat) : List Byte → Memory
  | [] => m
  | v :: vs => Memory.writeBlock p (Memory.write p m base v) (base + 1) vs

/-- `MemRead(a, 2)`, big-endian (spec/20_memory.md R54). -/
def Memory.readPair (p : Params) (m : Memory) (a : Nat) : Word :=
  joinBytes (Memory.read p m a) (Memory.read p m (a + 1))

/-- `MemWrite(a, 2, v)`, big-endian (spec/20_memory.md R54). -/
def Memory.writePair (p : Params) (m : Memory) (a : Nat) (v : Word) : Memory :=
  Memory.write p (Memory.write p m a (highByte v)) (a + 1) (lowByte v)

/-- `mem[a]` in a state: the model's read of one byte. -/
def State.byte (s : State) (a : Nat) : Byte := Memory.read s.params s.mem a

/-- `MemRead(a, 2)` in a state. -/
def State.pair (s : State) (a : Nat) : Word := Memory.readPair s.params s.mem a

/-- Memory is in its canonical form. -/
def State.memWf (s : State) : Bool := Memory.wf s.params s.mem

/-- `MemWrite(a, 2, v)` in a state. -/
def State.storePair (s : State) (a : Nat) (v : Word) : State :=
  { s with mem := Memory.writePair s.params s.mem a v }

/-- Bytes stored from `base` upward, in ascending order. -/
def State.storeBlock (s : State) (base : Nat) (vs : List Byte) : State :=
  { s with mem := Memory.writeBlock s.params s.mem base vs }

/-- `CheckRange(base, count)` for `count ≥ 1` (spec/43_memory_index.md R181): the lowest address out of range, if any. -/
def rangeFault (p : Params) (base count : Nat) : Option Nat :=
  if base + count > p.memSize then some (max base p.memSize) else none

/-! ### Registers -/

/-- `V[i]`; the free value where i is not below NREG (log entry 28). -/
def State.regAt (s : State) (i : Nat) : Byte := s.V.getD i (Config.absentRegister i)

/-- `V[x]` (spec/00_scope.md R9). -/
def State.reg (s : State) (x : Reg) : Byte := s.regAt x.toNat

/-- `V[x] <- v` (spec/00_scope.md R9); nothing where x is not below NREG (log entry 28). -/
def State.setReg (s : State) (x : Reg) (v : Byte) : State := { s with V := s.V.set x.toNat v }

/-- `VF`, the flag register `V[15]` (spec/10_state.md R22). -/
def vf : Reg := 0xF#4

/-- `V[0] .. V[x]`, ascending (spec/43_memory_index.md R185). -/
def State.regsUpTo (s : State) (x : Reg) : List Byte := (List.range (x.toNat + 1)).map s.regAt

/-- `V[i] <- mem[base + i]` for `i = 0 .. count - 1`, ascending (spec/43_memory_index.md R186). -/
def State.loadRegsFrom (s : State) (base count : Nat) : State :=
  { s with V := (List.range count).foldl (fun V i => V.set i (s.byte (base + i))) s.V }

/-- A value reduced to a register of `width` bits (log entry 9). -/
def narrow (width v : Nat) : Nat := v % 2 ^ width

/-- `pc <- v` (spec/00_scope.md R9), in PC_WIDTH bits. -/
def State.setPc (s : State) (v : Nat) : State := { s with pc := narrow s.params.pcWidth v }

/-- `SP <- v`, in SP_WIDTH bits. -/
def State.setSP (s : State) (v : Nat) : State := { s with SP := narrow s.params.spWidth v }

/-- `I <- v`, in I_WIDTH bits. -/
def State.setI (s : State) (v : Nat) : State := { s with I := narrow s.params.iWidth v }

/-- `DT <- v`, in TIMER_WIDTH bits. -/
def State.setDT (s : State) (v : Nat) : State := { s with DT := narrow s.params.timerWidth v }

/-- `ST <- v`, in TIMER_WIDTH bits. -/
def State.setST (s : State) (v : Nat) : State := { s with ST := narrow s.params.timerWidth v }

/-- The address `A = pc - 2` of the instruction being executed (spec/00_scope.md R11; log entry 16). -/
def State.instrAddr (s : State) : Nat := s.pc - 2

/-- `END = PROG_BASE + len` (spec/10_state.md R31). -/
def State.progEnd (s : State) : Nat := s.params.progBase + s.len

/-- `IPF`, slots per frame (spec/40_execution_cycle.md R114). -/
def State.ipf (s : State) : Nat := s.params.ipf

/-- The instruction budget of a frequency and a frame rate, rounded down: the value of IPF that R114 takes (decision D13). -/
def Params.floorBudget (p : Params) : Nat := p.freq / p.frameHz

/-! ### Faults -/

/-- The code of a fault kind (spec/60_exceptions.md R251). -/
def FaultKind.code : FaultKind → Nat
  | .memoryOutOfRange => 1
  | .keyIndexOutOfRange => 2
  | .stackUnderflow => 3
  | .indexOverflow => 4

/-- Enter the Faulted state: the record is kept, nothing else changes, nothing is emitted (spec/60_exceptions.md R252).
There is no return from a fault (R254). -/
def State.enterFault (s : State) (r : FaultRecord) : State := { s with run := .faulted r }

/-- `raise kind(info)` inside instruction `i`: the one way an instruction takes a fault. The record names the instruction's
address and its whole word (spec/60_exceptions.md R251, R252). -/
def raise (kind : FaultKind) (info : Nat) (i : Instr) (s : State) : Host.Outcome State Fault Refusal :=
  .next (s.enterFault { kind := kind, addr := s.instrAddr, word := some (encode i), info := info })

/-! ### Ports and trace -/

/-- An event is offered to its output port: it enters the buffer if the port is connected and has room, else it is
dropped. `KeyWait` and `UnknownOpcode` are offered to no port (spec/60_exceptions.md R260, spec/90_conflicts.md C5). -/
def Ports.offer (c : Params) (p : Ports) : Event → Ports
  | .frameOut grid =>
    { p with frames := if p.frameUp && decide (p.frames.length < c.capFrame) then p.frames ++ [grid] else p.frames }
  | .sound => { p with sound := if p.soundUp && decide (p.sound < c.capSound) then p.sound + 1 else p.sound }
  | .keyWait _ => p
  | .unknownOpcode _ _ => p

/-- `Emit(e)`: append to the trace and offer to the port, without waiting (spec/00_scope.md R10). -/
def State.emit (s : State) (e : Event) : State :=
  { s with trace := s.trace ++ [e], ports := s.ports.offer s.params e }

/-- `Take(KeyLevelPort)`: the oldest pending vector; a disconnected port always yields `none` (spec/60_exceptions.md R260). -/
def Ports.pendingKeys (p : Ports) : Option KeyFlags := if p.keyLevelUp then p.keyLevels.head? else none

/-- `Await(KeyEventPort)`: the key handed over, if any; a disconnected port never delivers (spec/60_exceptions.md R260). -/
def Ports.deliveredKey (p : Ports) : Option Nat := if p.keyEventUp then p.keyEvents.head? else none

/-- Whether the block waits in Fx0A (spec/60_exceptions.md R264). -/
def RunState.isWaiting : RunState → Bool
  | .waitingKey _ => true
  | .running | .halted | .faulted _ => false

/-- A lossy offer to a buffer of capacity `cap`: with room the value is appended; when full, it overwrites the newest held
value or is dropped (spec/60_exceptions.md R260; log entry 25). -/
def lossyOffer (cap : Nat) (replace : Bool) (v : KeyFlags) (held : List KeyFlags) : List KeyFlags :=
  if held.length < cap then held ++ [v] else if replace then held.set (held.length - 1) v else held

/-- One move of the environment. A key-level vector has NKEYS flags and a key is one of NKEYS; a rendezvous has room for a
key only while the block waits; input moves on a disconnected port have no effect (spec/60_exceptions.md R260, R261; log
entries 7, 25, 26). -/
def Ports.move (c : Params) (waiting : Bool) (p : Ports) : EnvMove → Ports
  | .offerKeys flags replace =>
    { p with
      keyLevels :=
        if p.keyLevelUp && decide (flags.length = c.nkeys) then lossyOffer c.capKeyLevel replace flags p.keyLevels
        else p.keyLevels }
  | .deliverKey k =>
    { p with
      keyEvents :=
        if p.keyEventUp && decide (k < c.nkeys) && decide (p.keyEvents.length < c.capKeyEvent + waiting.toNat) then
          p.keyEvents ++ [k]
        else p.keyEvents }
  | .takeSound => { p with sound := p.sound - 1 }
  | .takeFrame => { p with frames := p.frames.drop 1 }
  | .disconnect .keyLevel => { p with keyLevelUp := false, keyLevels := [] }
  | .disconnect .keyEvent => { p with keyEventUp := false, keyEvents := [] }
  | .disconnect .sound => { p with soundUp := false }
  | .disconnect .frame => { p with frameUp := false }

/-- The moves of the environment's coming turn: the script's, or the free value (log entries 3, 4). -/
def Env.coming (e : Env) : List EnvMove :=
  match e.script with
  | [] => Config.envMoves e.turns
  | moves :: _ => moves

/-- The environment's turn before a block step (spec/40_execution_cycle.md R100): only ports change. -/
def State.envTurn (s : State) : State :=
  { s with
    ports := s.env.coming.foldl (Ports.move s.params s.run.isWaiting) s.ports
    env := { s.env with script := s.env.script.tail, turns := s.env.turns + 1 } }

/-- The byte the next `Draw(RNG)` gives: the script's, or the free value (spec/42_register_arith.md R163). -/
def Env.comingByte (e : Env) : Byte :=
  match e.bytes with
  | [] => Config.randomByte e.draws
  | b :: _ => b

/-- The state after a `Draw(RNG)`. -/
def State.afterDraw (s : State) : State :=
  { s with env := { s.env with bytes := s.env.bytes.tail, draws := s.env.draws + 1 } }

/-! ### The flush -/

/-- `Flush()`: offer the grid if dirty, and clear dirty (spec/44_display_raster.md R211). -/
def State.flush (s : State) : State :=
  if s.dirty then { s.emit (.frameOut s.fb) with dirty := false } else s

end Sys2Proof.Machine
end

