-- ==== Sys2Proof/Machine/Cycle.lean ====
section
/-!
DEFINITION. The sequencer: frame start, slot, frame end, key receipt, and the choice of the transition row
(spec/40_execution_cycle.md R101 to R115, spec/45_timer_keyboard.md R236, spec/60_exceptions.md R257, R258).
-/

namespace Sys2Proof.Machine

/-- T1, T2: `pc ≥ END` halts, else the slots begin (R102). -/
def State.frameStart (s : State) : State :=
  if s.pc < s.progEnd then { s with slot := 0, phase := .inFrame } else { s with run := .halted }

/-- The keyboard drain: at most one pending vector replaces keys wholesale (R106). -/
def State.drain (s : State) : State :=
  { s with keys := s.ports.pendingKeys.getD s.keys, ports := { s.ports with keyLevels := s.ports.keyLevels.tail } }

/-- The state in which the fetched instruction executes: slot counted, pc advanced, keys drained (R103, R105, R106). -/
def State.slotEntry (s : State) : State := ({ s with slot := s.slot + 1 }.setPc (s.pc + 2)).drain

/-- The state after a fetch that needs a byte beyond memory, the lowest at `a`: slot counted, pc and keys as they were
(R104; spec/60_exceptions.md R252; log entry 27). -/
def State.fetchFault (s : State) (a : Nat) : State :=
  { s with slot := s.slot + 1 }.enterFault { kind := .memoryOutOfRange, addr := s.pc, word := none, info := a }

/-- DT tick (spec/60_exceptions.md R257). -/
def State.tickDT (s : State) : State := if s.DT = 0 then s else { s with DT := s.DT - 1 }

/-- ST tick, with a sound trigger (spec/60_exceptions.md R258). -/
def State.tickST (s : State) : State := if s.ST = 0 then s else { s.emit .sound with ST := s.ST - 1 }

/-- T6, the frame end: DT, ST with `Sound`, flush, in this order (R110). -/
def State.frameFinish (s : State) : State := { s.tickDT.tickST.flush with phase := .frameHead }

/-- T7, the receipt of key `k` by the Fx0A of register `x` (spec/45_timer_keyboard.md R236). -/
def State.receiveKey (s : State) (x : Reg) (k : Nat) : State :=
  { s.setReg x (BitVec.ofNat 8 k) with
    DT := 0, ST := 0, run := .running, ports := { s.ports with keyEvents := s.ports.keyEvents.tail } }

/-- What a block step is: settled at once, or the execution of an instruction in a state. -/
inductive Move where
  | settled (o : Host.Outcome State Fault Refusal)
  | execute (i : Instr) (s : State)

/-- T3, a slot that runs: fetch, then the decoded instruction in the slot's entry state (R104 to R107). -/
def State.beginSlot (s : State) : Move :=
  match rangeFault s.params s.pc 2 with
  | some a => .settled (.next (s.fetchFault a))
  | none => .execute (decodeWord (s.pair s.pc)) s.slotEntry

/-- The block step of a Running state (R115, T1 to T6). -/
def State.runningMove (s : State) : Move :=
  match s.phase with
  | .frameHead => .settled (.next s.frameStart)
  | .inFrame =>
    if s.slot < s.ipf then
      if s.pc < s.progEnd then s.beginSlot else .settled (.next { s with slot := s.slot + 1 })
    else if s.slot = s.ipf then .settled (.next { s with phase := .frameTail })
    else .settled (.fault .noRow)
  | .frameTail => .settled (.next s.frameFinish)

/-- The block step of a state that waits for a key (R115, T7); with no key delivered the block stays as it is
(spec/45_timer_keyboard.md R236; log entry 2). -/
def State.waitingMove (s : State) (x : Reg) : Move :=
  match s.phase with
  | .inFrame =>
    match s.ports.deliveredKey with
    | some k => .settled (.next (s.receiveKey x k))
    | none => .settled (.next s)
  | .frameHead | .frameTail => .settled (.fault .noRow)

/-- The row of R115 that applies to a state. Halted and Faulted stay as they are (T8; log entry 2). -/
def State.blockMove (s : State) : Move :=
  match s.run with
  | .running => s.runningMove
  | .waitingKey x => s.waitingMove x
  | .halted | .faulted _ => .settled (.next s)

/-- One step of the machine before any instruction executes: the environment's turn, then the block's row (R100). -/
def State.schedule (s : State) : Move := s.envTurn.blockMove

/-- `s` with the word `w` placed where the next slot fetches, and everything set that lets the very next step be that slot:
Running, in a frame with no slot used, and a program long enough to hold the word (log entry 13). -/
def State.placeWord (s : State) (w : Word) : State :=
  { s.storePair s.pc w with
    len := max s.len (s.pc + 2 - s.params.progBase)
    run := .running
    slot := 0
    phase := .inFrame }

end Sys2Proof.Machine
end

