-- ==== Sys2Proof/Machine/Flags.lean ====
section
/-!
DEFINITION. The flag computations of class 8 and the order in which result and flag are written
(spec/42_register_arith.md R150, R151). The collision flag is in Display.lean.
-/

namespace Sys2Proof.Machine

/-- `bool(c)` as a byte: 1 or 0 (spec/00_scope.md R8). -/
def flagByte (c : Bool) : Byte := if c then 1#8 else 0#8

/-- `(a + b) mod 256` of the exact sum (R150). -/
def addResult (a b : Byte) : Byte := BitVec.ofNat 8 (a.toNat + b.toNat)

/-- Carry: the exact sum exceeds 255 (R158). -/
def carryFlag (a b : Byte) : Bool := decide (a.toNat + b.toNat > 255)

/-- `(a - b) mod 256` of the exact difference (R150). -/
def subResult (a b : Byte) : Byte := BitVec.ofInt 8 ((a.toNat : Int) - (b.toNat : Int))

/-- The minuend strictly exceeds the subtrahend (R159, R161). -/
def greaterFlag (a b : Byte) : Bool := decide (a.toNat > b.toNat)

/-- `floor(v / 2)` (R160). -/
def shrResult (v : Byte) : Byte := BitVec.ofNat 8 (v.toNat / 2)

/-- `v[0]` (R160). -/
def lowBitFlag (v : Byte) : Bool := v.getLsbD 0

/-- `(2 * v) mod 256` (R162). -/
def shlResult (v : Byte) : Byte := BitVec.ofNat 8 (2 * v.toNat)

/-- `v[7]` (R162). -/
def highBitFlag (v : Byte) : Bool := v.getLsbD 7

/-- `SetRF(x, r, f)`: the order of the two writes is VF_LAST (R151, decision D5). -/
def State.setRF (s : State) (x : Reg) (r : Byte) (f : Bool) : State :=
  if s.params.vfLast then (s.setReg x r).setReg vf (flagByte f) else (s.setReg vf (flagByte f)).setReg x r

end Sys2Proof.Machine
end

