-- ==== Sys2Proof/Machine/Arith.lean ====
section
/-!
DEFINITION. Register arithmetic (spec/42_register_arith.md R152 to R163). All operands are read before any write (R151).
-/

namespace Sys2Proof.Machine

/-- LD Vx, kk (R152). -/
def execLdImm (x : Reg) (kk : Byte) (s : State) : Host.Outcome State Fault Refusal :=
  .next (s.setReg x kk)

/-- ADD Vx, kk (R153): no flag. -/
def execAddImm (x : Reg) (kk : Byte) (s : State) : Host.Outcome State Fault Refusal :=
  .next (s.setReg x (addResult (s.reg x) kk))

/-- MOV Vx, Vy (R154). -/
def execMovReg (x y : Reg) (s : State) : Host.Outcome State Fault Refusal :=
  .next (s.setReg x (s.reg y))

/-- OR Vx, Vy (R155): no flag. -/
def execOrReg (x y : Reg) (s : State) : Host.Outcome State Fault Refusal :=
  .next (s.setReg x (s.reg x ||| s.reg y))

/-- AND Vx, Vy (R156): no flag. -/
def execAndReg (x y : Reg) (s : State) : Host.Outcome State Fault Refusal :=
  .next (s.setReg x (s.reg x &&& s.reg y))

/-- XOR Vx, Vy (R157): no flag. -/
def execXorReg (x y : Reg) (s : State) : Host.Outcome State Fault Refusal :=
  .next (s.setReg x (s.reg x ^^^ s.reg y))

/-- ADD Vx, Vy (R158). -/
def execAddReg (x y : Reg) (s : State) : Host.Outcome State Fault Refusal :=
  .next (s.setRF x (addResult (s.reg x) (s.reg y)) (carryFlag (s.reg x) (s.reg y)))

/-- SUB Vx, Vy (R159). -/
def execSubReg (x y : Reg) (s : State) : Host.Outcome State Fault Refusal :=
  .next (s.setRF x (subResult (s.reg x) (s.reg y)) (greaterFlag (s.reg x) (s.reg y)))

/-- SHR Vx (R160): the input is V[x] (decision D6). -/
def execShr (x : Reg) (s : State) : Host.Outcome State Fault Refusal :=
  .next (s.setRF x (shrResult (s.reg x)) (lowBitFlag (s.reg x)))

/-- SUBB Vx, Vy (R161). -/
def execSubbReg (x y : Reg) (s : State) : Host.Outcome State Fault Refusal :=
  .next (s.setRF x (subResult (s.reg y) (s.reg x)) (greaterFlag (s.reg y) (s.reg x)))

/-- SHL Vx (R162): the input is V[x] (decision D6). -/
def execShl (x : Reg) (s : State) : Host.Outcome State Fault Refusal :=
  .next (s.setRF x (shlResult (s.reg x)) (highBitFlag (s.reg x)))

/-- RND Vx, kk (R163): the drawn byte is a free input (log entry 5). -/
def execRnd (x : Reg) (kk : Byte) (s : State) : Host.Outcome State Fault Refusal :=
  .next (s.afterDraw.setReg x (s.env.comingByte &&& kk))

end Sys2Proof.Machine
end

