-- ==== Sys2Proof/Machine/Operands.lean ====
section
/-!
DEFINITION. Operand forms: the zero-extended address (spec/30_encoding.md R73), the range-checked I-relative and stack
operands (spec/43_memory_index.md R181, spec/20_memory.md R53), the key index (spec/45_timer_keyboard.md R230) and the
sprite's origin (spec/44_display_raster.md R202).
-/

namespace Sys2Proof.Machine

/-- `zext_16(nnn)`: the unsigned value of nnn (spec/30_encoding.md R73). -/
def zextAddr (nnn : Addr12) : Nat := nnn.toNat

/-- A byte as an index-register or address operand, zero-extended to a number (spec/00_scope.md R8). -/
def State.regNat (s : State) (x : Reg) : Nat := (s.reg x).toNat

/-- Check the whole range `base .. base + count - 1` before anything is written; out of range raises
`MemoryOutOfRange` (spec/20_memory.md R53, spec/43_memory_index.md R181). -/
def withRange (base count : Nat) (i : Instr) (s : State) (k : Host.Outcome State Fault Refusal) :
    Host.Outcome State Fault Refusal :=
  match rangeFault s.params base count with
  | some a => raise .memoryOutOfRange a i s
  | none => k

/-- Check a key index: NKEYS (16) or above raises `KeyIndexOutOfRange` (spec/45_timer_keyboard.md R230). -/
def withKeyIndex (k : Byte) (i : Instr) (s : State) (next : Host.Outcome State Fault Refusal) :
    Host.Outcome State Fault Refusal :=
  if k.toNat ≥ s.params.nkeys then raise .keyIndexOutOfRange k.toNat i s else next

/-- `keys[k]`, for a checked index (spec/10_state.md R28). -/
def State.keyDown (s : State) (k : Byte) : Bool := s.keys.getD k.toNat false

/-- The sprite's column `V[x] mod FB_W` (64) (spec/44_display_raster.md R202). -/
def State.spriteCol (s : State) (x : Reg) : Nat := s.regNat x % s.params.fbCols

/-- The sprite's row `V[y] mod FB_H` (32) (spec/44_display_raster.md R202). -/
def State.spriteRow (s : State) (y : Reg) : Nat := s.regNat y % s.params.fbRows

end Sys2Proof.Machine
end

