-- ==== Sys2Proof/Machine/Control.lean ====
section
/-!
DEFINITION. Control flow: RET, JP, CALL, JP V0 and the four skips (spec/41_control_flow.md R130 to R137). `pc` is the
advanced value, the instruction's address plus 2 (R138).
-/

namespace Sys2Proof.Machine

/-- `pc <- pc + 2` when `c` holds (R133). -/
def State.skipIf (s : State) (c : Bool) : State := if c then s.setPc (s.pc + 2) else s

/-- RET (R130): underflow at SP = 0; else pop the big-endian pair at SP (log entry 17). -/
def execRet (x : Nibble) (s : State) : Host.Outcome State Fault Refusal :=
  if s.SP = 0 then raise .stackUnderflow s.instrAddr (.ret x) s
  else withRange s.SP 2 (.ret x) s (.next ((s.setPc (s.pair s.SP).toNat).setSP (s.SP - 2)))

/-- JP nnn (R131). -/
def execJp (nnn : Addr12) (s : State) : Host.Outcome State Fault Refusal :=
  .next (s.setPc (zextAddr nnn))

/-- The address a CALL pushes to, `SP + 2`, exact (R132). -/
def State.pushAddr (s : State) : Nat := s.SP + 2

/-- CALL nnn (R132): the range of both bytes is checked before any write (log entry 18). -/
def execCall (nnn : Addr12) (s : State) : Host.Outcome State Fault Refusal :=
  withRange s.pushAddr 2 (.call nnn) s
    (.next (((s.storePair s.pushAddr (BitVec.ofNat 16 s.pc)).setSP s.pushAddr).setPc (zextAddr nnn)))

/-- SE Vx, kk (R133). -/
def execSeImm (x : Reg) (kk : Byte) (s : State) : Host.Outcome State Fault Refusal :=
  .next (s.skipIf (s.reg x == kk))

/-- SNE Vx, kk (R134). -/
def execSneImm (x : Reg) (kk : Byte) (s : State) : Host.Outcome State Fault Refusal :=
  .next (s.skipIf (s.reg x != kk))

/-- SE Vx, Vy (R135). -/
def execSeReg (x y : Reg) (s : State) : Host.Outcome State Fault Refusal :=
  .next (s.skipIf (s.reg x == s.reg y))

/-- SNE Vx, Vy (R136). -/
def execSneReg (x y : Reg) (s : State) : Host.Outcome State Fault Refusal :=
  .next (s.skipIf (s.reg x != s.reg y))

/-- JP V0, nnn (R137): the exact sum, at most 0x10FE. -/
def execJpV0 (nnn : Addr12) (s : State) : Host.Outcome State Fault Refusal :=
  .next (s.setPc (nnn.toNat + s.regNat 0#4))

end Sys2Proof.Machine
end

