-- ==== Sys2Proof/Machine/Display.lean ====
section
/-!
DEFINITION. The framebuffer raster engine (spec/44_display_raster.md R200 to R209): CLS, and DRW as the literal loop of
R201, pixel by pixel. The closed form of R209 is a statement about it, not its definition.
-/

namespace Sys2Proof.Machine

/-- `fb[r][c]`; off outside the grid. -/
def Grid.pixel (g : Grid) (r c : Nat) : Bool := (g.getD r []).getD c false

/-- `fb[r][c] <- b`; nothing outside the grid. -/
def Grid.setPixel (g : Grid) (r c : Nat) (b : Bool) : Grid := g.set r ((g.getD r []).set c b)

/-- The grid has FB_H rows of FB_W pixels (spec/10_state.md R29). -/
def Grid.shaped (p : Params) (g : Grid) : Bool :=
  decide (g.length = p.fbRows) && g.all fun row => decide (row.length = p.fbCols)

/-- What a draw changes: the grid, whether a collision has happened (VF, sticky, R205) and dirty. -/
structure Canvas where
  fb : Grid
  hit : Bool
  dirty : Bool
  deriving DecidableEq, Repr

/-- A set sprite bit meets position (row, col): clipped off screen (R203), else a pixel that is on turns off with a
collision, a pixel that is off turns on, and the canvas is dirty (R201, R207). -/
def Canvas.plot (p : Params) (k : Canvas) (row col : Nat) : Canvas :=
  if row < p.fbRows ∧ col < p.fbCols then
    if k.fb.pixel row col then { fb := k.fb.setPixel row col false, hit := true, dirty := true }
    else { k with fb := k.fb.setPixel row col true, dirty := true }
  else k

/-- Draw one sprite byte, most significant bit first, at the eight columns from `col` (R206). -/
def Canvas.drawByte (p : Params) (k : Canvas) (row col : Nat) (bits : Byte) : Canvas :=
  (List.range 8).foldl (fun k b => if bits.getLsbD (7 - b) then k.plot p row (col + b) else k) k

/-- Draw sprite rows downward from `row` (R201). -/
def Canvas.drawRows (p : Params) (k : Canvas) (row col : Nat) : List Byte → Canvas
  | [] => k
  | bits :: rest => Canvas.drawRows p (k.drawByte p row col bits) (row + 1) col rest

/-- CLS (R200): every pixel off, dirty set whatever was on (decision D10). -/
def execCls (s : State) : Host.Outcome State Fault Refusal :=
  .next { s with fb := Grid.blank s.params, dirty := true }

/-- The canvas after DRW draws the `n` bytes at I, origin (V[y] mod FB_H, V[x] mod FB_W), both read before VF changes. -/
def State.drawn (s : State) (x y : Reg) (n : Nibble) : Canvas :=
  Canvas.drawRows s.params { fb := s.fb, hit := false, dirty := s.dirty } (s.spriteRow y) (s.spriteCol x)
    (Memory.readBlock s.params s.mem s.I n.toNat)

/-- The state after a draw: the canvas written back, VF the collision flag (R201, R205). -/
def State.putCanvas (s : State) (k : Canvas) : State :=
  { s with fb := k.fb, dirty := k.dirty }.setReg vf (flagByte k.hit)

/-- DRW Vx, Vy, n (R201): with n = 0 no range is checked and VF is cleared (R208). -/
def execDrw (x y : Reg) (n : Nibble) (s : State) : Host.Outcome State Fault Refusal :=
  if n = 0#4 then .next (s.putCanvas (s.drawn x y n))
  else withRange s.I n.toNat (.drw x y n) s (.next (s.putCanvas (s.drawn x y n)))

end Sys2Proof.Machine
end

