-- ==== Sys2Proof/Machine/Index.lean ====
section
/-!
DEFINITION. The index register and the I-relative loads and stores (spec/43_memory_index.md R180 to R186). I is never
changed by an access (R181).
-/

namespace Sys2Proof.Machine

/-- LD I, nnn (R180). -/
def execLdI (nnn : Addr12) (s : State) : Host.Outcome State Fault Refusal :=
  .next (s.setI (zextAddr nnn))

/-- ADD I, Vx (R182): a sum that does not fit I_WIDTH bits (above 0xFFFF) raises `IndexOverflow`; VF is not written. -/
def execAddI (x : Reg) (s : State) : Host.Outcome State Fault Refusal :=
  if s.I + s.regNat x ≥ 2 ^ s.params.iWidth then raise .indexOverflow (s.I + s.regNat x) (.addI x) s
  else .next (s.setI (s.I + s.regNat x))

/-- LD F, Vx (R183): the whole register value, no mask (log entries 8, 9). -/
def execLdF (x : Reg) (s : State) : Host.Outcome State Fault Refusal :=
  .next (s.setI (s.params.fontBase + s.params.glyphBytes * s.regNat x))

/-- The digits of a byte, hundreds first (R184). -/
def bcdDigits (v : Byte) : List Byte :=
  [BitVec.ofNat 8 (v.toNat / 100), BitVec.ofNat 8 (v.toNat / 10 % 10), BitVec.ofNat 8 (v.toNat % 10)]

/-- LD B, Vx (R184). -/
def execLdB (x : Reg) (s : State) : Host.Outcome State Fault Refusal :=
  withRange s.I 3 (.ldB x) s
    (.next (s.storeBlock s.I (bcdDigits (s.reg x))))

/-- LD [I], Vx (R185): V0 to Vx. -/
def execStoreRegs (x : Reg) (s : State) : Host.Outcome State Fault Refusal :=
  withRange s.I (x.toNat + 1) (.storeRegs x) s
    (.next (s.storeBlock s.I (s.regsUpTo x)))

/-- LD Vx, [I] (R186): V0 to Vx. -/
def execLoadRegs (x : Reg) (s : State) : Host.Outcome State Fault Refusal :=
  withRange s.I (x.toNat + 1) (.loadRegs x) s
    (.next (s.loadRegsFrom s.I (x.toNat + 1)))

end Sys2Proof.Machine
end

