-- ==== Sys2Proof/Machine/NoOp.lean ====
section
/-!
DEFINITION. The no-op words of classes 0, 8, E and F (spec/40_execution_cycle.md R108, spec/30_encoding.md R77): a trace
event, no other effect.
-/

namespace Sys2Proof.Machine

/-- `NoOp(A, w)` (R108): emit `UnknownOpcode(A, w)`. -/
def noOp (i : Instr) (s : State) : Host.Outcome State Fault Refusal :=
  .next (s.emit (.unknownOpcode s.instrAddr (encode i)))

/-- No-op of class 0. -/
def execNoop0 (x : Nibble) (kk : Byte) (s : State) : Host.Outcome State Fault Refusal := noOp (.noop0 x kk) s

/-- No-op of class 8. -/
def execNoop8 (x y n : Nibble) (s : State) : Host.Outcome State Fault Refusal := noOp (.noop8 x y n) s

/-- No-op of class E. -/
def execNoopE (x : Nibble) (kk : Byte) (s : State) : Host.Outcome State Fault Refusal := noOp (.noopE x kk) s

/-- No-op of class F. -/
def execNoopF (x : Nibble) (kk : Byte) (s : State) : Host.Outcome State Fault Refusal := noOp (.noopF x kk) s

end Sys2Proof.Machine
end

