-- ==== Sys2Proof/Machine/TimerKey.lean ====
section
/-!
DEFINITION. Keyboard tests, timer moves and the key wait's issue (spec/45_timer_keyboard.md R230 to R235). The receipt of
the key (R236) is a step of its own, in Cycle.lean.
-/

namespace Sys2Proof.Machine

/-- SKP Vx (R230). -/
def execSkp (x : Reg) (s : State) : Host.Outcome State Fault Refusal :=
  withKeyIndex (s.reg x) (.skp x) s (.next (s.skipIf (s.keyDown (s.reg x))))

/-- SKNP Vx (R231). -/
def execSknp (x : Reg) (s : State) : Host.Outcome State Fault Refusal :=
  withKeyIndex (s.reg x) (.sknp x) s (.next (s.skipIf (!s.keyDown (s.reg x))))

/-- LD Vx, DT (R232): the low byte of DT, which is all of it in 8 bits (log entry 9). -/
def execLdVxDT (x : Reg) (s : State) : Host.Outcome State Fault Refusal :=
  .next (s.setReg x (BitVec.ofNat 8 s.DT))

/-- LD DT, Vx (R233). -/
def execLdDTVx (x : Reg) (s : State) : Host.Outcome State Fault Refusal :=
  .next (s.setDT (s.regNat x))

/-- LD ST, Vx (R234): the write emits nothing. -/
def execLdSTVx (x : Reg) (s : State) : Host.Outcome State Fault Refusal :=
  .next (s.setST (s.regNat x))

/-- LD Vx, K, the issue step (R235): flush, then the block waits. -/
def execLdVxK (x : Reg) (s : State) : Host.Outcome State Fault Refusal :=
  .next { s.flush.emit (.keyWait x) with run := .waitingKey x }

end Sys2Proof.Machine
end

