-- ==== Sys2Proof/Machine/Step.lean ====
section
/-!
DEFINITION. One step: the environment's turn and the block's transition row (Cycle.lean), and for a slot that runs, the
decoded instruction's meaning (spec/40_execution_cycle.md R115).
-/

namespace Sys2Proof.Machine

/-- One step of the machine. -/
def step (s : State) : Host.Outcome State Fault Refusal :=
  match s.schedule with
  | .settled o => o
  | .execute i s' => exec i s'

/-- `s` with the instruction whose bits are `w` where the very next step fetches it (log entry 13). -/
def State.withFetchWord (s : State) (nbits w : Nat) : State := s.placeWord (BitVec.ofNat 16 (w % 2 ^ nbits))

end Sys2Proof.Machine
end

