-- ==== Sys2Proof/Machine/Load.lean ====
section
/-!
DEFINITION. Program load (spec/70_reset_and_hazards.md R280, R281): how a run is created from a byte buffer, with the
parameter RESET_STATE of spec/10_state.md R37.
-/

namespace Sys2Proof.Machine

/-- `RESET_STATE`: the values the source does not give (R37, decision D15). -/
structure ResetState where
  V : List Byte
  I : Nat
  DT : Nat
  ST : Nat
  keys : KeyFlags
  fb : Grid
  dirty : Bool
  deriving DecidableEq, Repr

/-- The default RESET_STATE: zero, false and off (decision D15). -/
def ResetState.zero (p : Params) : ResetState :=
  { V := List.replicate p.nreg 0#8, I := 0, DT := 0, ST := 0, keys := List.replicate p.nkeys false,
    fb := Grid.blank p, dirty := false }

/-- `Reset(P)` (R280) under parameters and RESET_STATE; a buffer longer than PROG_MAX is refused (R281). -/
def load (params : Params) (r : ResetState) (program : List Byte) : Host.Outcome State Fault Refusal :=
  if program.length > params.progMax then .refused (.programTooLong program.length)
  else
    .next
      { State.reset with
        mem := Memory.writeBlock params [] params.progBase program
        pc := narrow params.pcWidth params.progBase
        V := r.V, I := r.I, DT := r.DT, ST := r.ST, keys := r.keys, fb := r.fb, dirty := r.dirty
        len := program.length
        params := params }

end Sys2Proof.Machine
end

