-- ==== Sys2Proof/Safety.lean ====
section
/-!
DEFINITION. The terms claims use: what a safe run is, the invariant of the machine, what an instruction leaves unchanged
(its frame), the sprite's bits as spec/44_display_raster.md R209 speaks of them, and sequences of calls and returns.
-/

namespace Sys2Proof.Machine

/-- The state is not Faulted: the premise of a claim of correct behaviour (spec/60_exceptions.md R254). -/
def State.Safe (s : State) : Prop := ∀ r, s.run ≠ .faulted r

/-- A normal end of a run (spec/40_execution_cycle.md R112). -/
def State.EndedNormally (s : State) : Prop := s.run = .halted

/-- Parameter values at which every rule keeps its meaning (spec/00_scope.md R6, R8). Every register an instruction can name
exists (V0 to VF); memory holds one pair, and each of its addresses and the two after a skip's target fit 16 bits; a program of
PROG_MAX bytes fits memory; each register is at least as wide as the values the rules put into it: I for nnn and for a glyph's
address, pc for a pair popped from memory, SP for an address of memory, a timer for a byte; a key index fits a byte. The
defaults are such values (log entries 8, 9). -/
abbrev Params.Sane (p : Params) : Prop :=
  16 ≤ p.nreg ∧ (2 ≤ p.memSize ∧ p.memSize + 2 < 0x10000) ∧ p.progBase + p.progMax ≤ p.memSize ∧
    (12 ≤ p.iWidth ∧ p.fontBase + p.glyphBytes * 255 < 2 ^ p.iWidth) ∧ 16 ≤ p.pcWidth ∧ p.memSize ≤ 2 ^ p.spWidth ∧
    8 ≤ p.timerWidth ∧ p.nkeys ≤ 256

/-- The registers are those of sane parameters: NREG general registers, I within its width, pc within the pair that CALL pushes,
DT and ST within the byte that alone is written to them (spec/10_state.md R20, R23, R25 to R27). Part of the invariant, and the
premise of the statements that need it. -/
abbrev State.Sized (s : State) : Prop :=
  s.params.Sane ∧ s.V.length = s.params.nreg ∧ s.I < 2 ^ s.params.iWidth ∧ s.pc < 0x10000 ∧ s.DT < 256 ∧ s.ST < 256

/-- The invariant of the machine: registers sized, memory canonical (MEM_SIZE bound included), the program fits (spec/10_state.md R31), SP
even and a pair below memory's top (R24; spec/41_control_flow.md R130), keys and framebuffer of their sizes (R28, R29), slots
within the frame (R33), each run state in its phase (spec/40_execution_cycle.md R111, R115), each port within its capacity
and its inputs of the port's kind (spec/60_exceptions.md R260). -/
structure State.Inv (s : State) : Prop where
  sized : s.Sized
  memory : s.memWf = true
  program : s.len ≤ s.params.progMax
  stackEven : s.SP % 2 = 0
  stackFits : s.SP + 1 < s.params.memSize
  keysShape : s.keys.length = s.params.nkeys
  fbShape : s.fb.shaped s.params = true
  slots : s.slot ≤ s.ipf
  tailFull : s.phase = .frameTail → s.slot = s.ipf
  waiting : ∀ x, s.run = .waitingKey x → s.phase = .inFrame
  halted : s.run = .halted → s.phase = .frameHead ∧ s.progEnd ≤ s.pc
  faulted : ∀ r, s.run = .faulted r → s.phase = .inFrame
  keyLevelCap : s.ports.keyLevels.length ≤ s.params.capKeyLevel
  keyLevelShape : ∀ flags ∈ s.ports.keyLevels, flags.length = s.params.nkeys
  keyEventCap : s.ports.keyEvents.length ≤ s.params.capKeyEvent
  keyEventRange : ∀ k ∈ s.ports.keyEvents, k < s.params.nkeys
  soundCap : s.ports.sound ≤ s.params.capSound
  frameCap : s.ports.frames.length ≤ s.params.capFrame

/-- Registers outside `changed` hold what they held. -/
def RegsKept (s t : State) (changed : Reg → Prop) : Prop := ∀ j, ¬ changed j → t.reg j = s.reg j

/-- Bytes of memory outside `changed` read as they read. -/
def BytesKept (s t : State) (changed : Nat → Prop) : Prop :=
  ∀ a, ¬ changed a → t.byte a = s.byte a

/-- No register. -/
def noReg : Reg → Prop := fun _ => False

/-- No address. -/
def noByte : Nat → Prop := fun _ => False

/-- The special registers I, SP, DT and ST are unchanged. -/
def SpecialsKept (s t : State) : Prop := t.I = s.I ∧ t.SP = s.SP ∧ t.DT = s.DT ∧ t.ST = s.ST

/-- Framebuffer and dirty flag are unchanged. -/
def ScreenKept (s t : State) : Prop := t.fb = s.fb ∧ t.dirty = s.dirty

/-- Keys, program length, slot, phase and parameters are unchanged: what no instruction changes. -/
def CycleKept (s t : State) : Prop :=
  t.keys = s.keys ∧ t.len = s.len ∧ t.slot = s.slot ∧ t.phase = s.phase ∧ t.params = s.params

/-- Run state, trace, ports and the environment's inputs are unchanged. -/
def OutsideKept (s t : State) : Prop := t.run = s.run ∧ t.trace = s.trace ∧ t.ports = s.ports ∧ t.env = s.env

/-- The frame of an instruction that writes only registers in `changed`: everything else, pc too, is unchanged. -/
def OnlyRegsChange (s t : State) (changed : Reg → Prop) : Prop :=
  RegsKept s t changed ∧ BytesKept s t noByte ∧ t.pc = s.pc ∧ SpecialsKept s t ∧ ScreenKept s t ∧ CycleKept s t ∧
    OutsideKept s t

/-- The frame of an instruction that writes only pc. -/
def OnlyPcChanges (s t : State) : Prop :=
  RegsKept s t noReg ∧ BytesKept s t noByte ∧ SpecialsKept s t ∧ ScreenKept s t ∧ CycleKept s t ∧ OutsideKept s t

/-- The frame of an instruction that writes only bytes of memory in `changed`. -/
def OnlyBytesChange (s t : State) (changed : Nat → Prop) : Prop :=
  RegsKept s t noReg ∧ BytesKept s t changed ∧ t.pc = s.pc ∧ SpecialsKept s t ∧ ScreenKept s t ∧ CycleKept s t ∧
    OutsideKept s t

/-- The frame of an instruction that writes only I. -/
def OnlyIChanges (s t : State) : Prop :=
  RegsKept s t noReg ∧ BytesKept s t noByte ∧ t.pc = s.pc ∧ t.SP = s.SP ∧ t.DT = s.DT ∧ t.ST = s.ST ∧ ScreenKept s t ∧
    CycleKept s t ∧ OutsideKept s t

/-- What SetRF leaves (spec/42_register_arith.md R151): result `r` in V[x] and flag `f` in VF; where x is F, VF holds the
one that VF_LAST writes last. -/
def ResultAndFlag (s t : State) (x : Reg) (r f : Nat) : Prop :=
  (x ≠ vf → (t.reg x).toNat = r ∧ (t.reg vf).toNat = f) ∧
    (x = vf → (t.reg vf).toNat = if s.params.vfLast then f else r)

/-- What an instruction's fault leaves (spec/60_exceptions.md R251, R252): the record with the instruction's address, its
word and the info, in a state that is otherwise unchanged. -/
def FaultsWith (o : Host.Outcome State Fault Refusal) (s : State) (kind : FaultKind) (w : Word) (info : Nat) : Prop :=
  ∃ t, o = .next t ∧ t.run = .faulted { kind := kind, addr := s.pc - 2, word := some w, info := info } ∧
    t.pc = s.pc ∧ RegsKept s t noReg ∧ BytesKept s t noByte ∧ SpecialsKept s t ∧ ScreenKept s t ∧ CycleKept s t ∧
    t.trace = s.trace ∧ t.ports = s.ports ∧ t.env = s.env

/-- The sprite bit of DRW Vx, Vy, n that covers position (R, C), `false` where none does (spec/44_display_raster.md R206,
R209): row `R - cy` of the bytes at I, bit 7 in column cx. -/
def State.spriteBit (s : State) (x y : Reg) (n : Nibble) (R C : Nat) : Bool :=
  decide (s.spriteRow y ≤ R ∧ R < s.spriteRow y + n.toNat ∧ s.spriteCol x ≤ C ∧ C < s.spriteCol x + 8) &&
    (s.byte (s.I + (R - s.spriteRow y))).getLsbD (7 - (C - s.spriteCol x))

/-- The two port buffers the environment drains, and whether it is still connected to them, at fixed values: what is left
is everything the block's steps may depend on (spec/60_exceptions.md R260, "Acceptance never feeds back"). -/
def State.forgetOutput (s : State) : State :=
  { s with ports := { s.ports with sound := 0, frames := [], soundUp := true, frameUp := true } }

/-- An outcome without the output port buffers. -/
def forgetOutcome : Host.Outcome State Fault Refusal → Host.Outcome State Fault Refusal
  | .next s => .next s.forgetOutput
  | .fault r => .fault r
  | .refused r => .refused r

/-- Nested calls, each given the advanced pc it executes with and its target (spec/41_control_flow.md R139). -/
def callSeq : List (Nat × Addr12) → State → Host.Outcome State Fault Refusal
  | [], s => .next s
  | (pc, nnn) :: rest, s =>
    match exec (.call nnn) { s with pc := pc } with
    | .next t => callSeq rest t
    | .fault r => .fault r
    | .refused r => .refused r

/-- A sequence of returns (spec/41_control_flow.md R139). -/
def retSeq : Nat → State → Host.Outcome State Fault Refusal
  | 0, s => .next s
  | k + 1, s =>
    match exec (.ret 0#4) s with
    | .next t => retSeq k t
    | .fault r => .fault r
    | .refused r => .refused r

end Sys2Proof.Machine
end

