-- ==== Sys2Proof/Certificates/Slice0/Obligations.lean ====
section
/-!
DEFINITION. The statements for the provers, from the numbered rules of spec/. An instruction's statement says that exec
answers a next state under hypotheses on the state and the operands alone, what that state holds, and its frame: what it
leaves unchanged. `pc` in the state given to exec is the advanced value A + 2 (spec/00_scope.md R11). Every statement holds for
every value of the parameters of R6 that the state carries, unless it names the values it assumes; those that need parameters
at which every rule keeps its meaning take `Params.Sane`, or `State.Sized` that contains it, as a premise.
-/

open Sys2Proof Sys2Proof.Machine

/-! ### Encoding -/

/-- Decoding the two bytes of a well-formed instruction gives it back: no operand bit is dropped (spec/30_encoding.md R72,
R75). -/
def Obligations.DecodeEncodeRoundTrip : Prop :=
  ∀ i, WellFormed i = true → decode (encodeBytes i) = .ok (i, [])

/-- Every one of the 65536 words decodes to a well-formed instruction whose encoding is that word (spec/30_encoding.md R74,
R75, R76; the carried ignored bits are log entry 14). -/
def Obligations.EveryWordIsOneInstruction : Prop :=
  ∀ w, WellFormed (decodeWord w) = true ∧ encode (decodeWord w) = w

/-- The decoder agrees with the masks and patterns of the 34 exact rows of the opcode map (spec/30_encoding.md R75,
R76). That x is ignored in class 0 and n in classes 5 and 9 is the spec's decision D12. -/
def Obligations.DecoderFollowsOpcodeTable : Prop :=
  ∀ w, ∀ r ∈ exactRows, w &&& r.mask = r.pattern ↔ (decodeWord w).mnemonic = r.mnemonic

/-- Which words are in the no-op space (spec/30_encoding.md R77). -/
def Obligations.NoOpSpace : Prop :=
  ∀ w, (decodeWord w).isNoOp = true ↔
    (fieldC w = 0x0#4 ∧ fieldKK w ≠ 0xE0#8 ∧ fieldKK w ≠ 0xEE#8) ∨
    (fieldC w = 0x8#4 ∧ fieldN w ∈ [0x8#4, 0x9#4, 0xA#4, 0xB#4, 0xC#4, 0xD#4, 0xF#4]) ∨
    (fieldC w = 0xE#4 ∧ fieldKK w ≠ 0x9E#8 ∧ fieldKK w ≠ 0xA1#8) ∨
    (fieldC w = 0xF#4 ∧
      fieldKK w ∉ [0x07#8, 0x0A#8, 0x15#8, 0x18#8, 0x1E#8, 0x29#8, 0x33#8, 0x55#8, 0x65#8])

/-- Sanity: words written out from the map of spec/30_encoding.md R75 (and R76's ignored bits) decode as it says. -/
def Obligations.SpecWordsDecode : Prop :=
  decode [0x05#8, 0xE0#8] = .ok (.cls 5#4, []) ∧ decode [0x0A#8, 0xEE#8] = .ok (.ret 0xA#4, []) ∧
  decode [0x1A#8, 0xBC#8] = .ok (.jp 0xABC#12, []) ∧ decode [0x33#8, 0x42#8] = .ok (.seImm 3#4 0x42#8, []) ∧
  decode [0x51#8, 0x27#8] = .ok (.seReg 1#4 2#4 7#4, []) ∧ decode [0x60#8, 0x0A#8] = .ok (.ldImm 0#4 0x0A#8, []) ∧
  decode [0x80#8, 0x14#8] = .ok (.addReg 0#4 1#4, []) ∧ decode [0x81#8, 0x28#8] = .ok (.noop8 1#4 2#4 8#4, []) ∧
  decode [0xA1#8, 0x23#8] = .ok (.ldI 0x123#12, []) ∧ decode [0xD1#8, 0x2F#8] = .ok (.drw 1#4 2#4 0xF#4, []) ∧
  decode [0xE1#8, 0xA1#8] = .ok (.sknp 1#4, []) ∧ decode [0xF3#8, 0x55#8] = .ok (.storeRegs 3#4, [])

/-! ### The machine: steps, rows, invariant -/

/-- A step runs the decoded instruction: in a slot that runs, the two bytes at pc decode to i and the step is exec of i in
the slot's entry state, in which slot is counted, pc advanced by 2 and keys drained, and in which the environment's turn has
changed only ports and its own inputs (spec/40_execution_cycle.md R103 to R107, R100). The model's own, design choices: that an
advance that does not fit PC_WIDTH bits, which no run at sane parameters makes, is reduced to them (log entries 9, 16). -/
def Obligations.StepRunsDecodedInstruction : Prop :=
  ∀ s i, s.run = .running → s.phase = .inFrame → s.slot < s.ipf → s.pc < s.progEnd →
    s.pc + 1 < s.params.memSize →
    decode [s.byte s.pc, s.byte (s.pc + 1)] = .ok (i, []) →
    ∃ e, step s = exec i e ∧ e.pc = (s.pc + 2) % 2 ^ s.params.pcWidth ∧ e.slot = s.slot + 1 ∧
      e.keys = s.envTurn.ports.pendingKeys.getD s.keys ∧
      e.ports = { s.envTurn.ports with keyLevels := s.envTurn.ports.keyLevels.tail } ∧
      e.env = s.envTurn.env ∧ e.mem = s.mem ∧ e.V = s.V ∧ e.I = s.I ∧ e.SP = s.SP ∧ e.DT = s.DT ∧ e.ST = s.ST ∧
      e.fb = s.fb ∧ e.dirty = s.dirty ∧ e.len = s.len ∧ e.run = s.run ∧ e.phase = s.phase ∧ e.trace = s.trace ∧
      e.params = s.params

/-- The fetch fault: at pc MEM_SIZE - 1 (4095) the low byte does not exist; the record has no word, pc stays, the slot is
counted, keys are not drained (spec/40_execution_cycle.md R104; spec/60_exceptions.md R252; that the slot is counted is log
entry 27, that a fault is a next state log entry 1). The fault is the spec's decision D1. -/
def Obligations.FetchPastMemoryFaults : Prop :=
  ∀ s, s.run = .running → s.phase = .inFrame → s.slot < s.ipf → s.pc < s.progEnd → s.pc + 1 = s.params.memSize →
    step s = .next
      { s.envTurn with
        slot := s.slot + 1
        run := .faulted { kind := .memoryOutOfRange, addr := s.pc, word := none, info := s.params.memSize } }

/-- The environment's turn before a step touches no block state: ports and the environment's own inputs alone change
(spec/60_exceptions.md R261; spec/40_execution_cycle.md R100). Second clause, about the model's own list of turns already
fixed (log entries 3 and 4, the latter a design choice): a turn that the list holds is made move by move, and is taken off
the list. -/
def Obligations.EnvironmentTouchesOnlyPorts : Prop :=
  ∀ s : State, s.envTurn = { s with ports := s.envTurn.ports, env := s.envTurn.env } ∧
    (∀ moves rest, s.env.script = moves :: rest →
      s.envTurn.ports = moves.foldl (Ports.move s.params s.run.isWaiting) s.ports ∧ s.envTurn.env.script = rest)

/-- Frame start: pc at or past END halts, else the slot counter is reset and the slots begin
(spec/40_execution_cycle.md R102, T1, T2). Where the check stands is the spec's decision D14. -/
def Obligations.FrameStart : Prop :=
  ∀ s, s.run = .running → s.phase = .frameHead →
    (s.progEnd ≤ s.pc → step s = .next { s.envTurn with run := .halted }) ∧
    (s.pc < s.progEnd → step s = .next { s.envTurn with slot := 0, phase := .inFrame })

/-- With pc at or past END a slot is empty: only the slot counter moves; with all slots used the frame's tail is next
(spec/40_execution_cycle.md R103, T4, T5). The test pc < END is the spec's decision D14. -/
def Obligations.EmptySlotAndSlotsUsed : Prop :=
  ∀ s, s.run = .running → s.phase = .inFrame →
    (s.slot < s.ipf → s.progEnd ≤ s.pc → step s = .next { s.envTurn with slot := s.slot + 1 }) ∧
    (s.slot = s.ipf → step s = .next { s.envTurn with phase := .frameTail })

/-- The frame end: DT and ST count down if nonzero, a Sound is emitted if ST was nonzero, then the grid is flushed if
dirty; the Sound and then the frame are offered to their ports as the environment's turn left them, and nothing else changes
(spec/40_execution_cycle.md R110; spec/60_exceptions.md R257, R258, R260; spec/44_display_raster.md R211). -/
def Obligations.FrameEndTicksAndFlushes : Prop :=
  ∀ s, s.run = .running → s.phase = .frameTail →
    ∃ t, step s = .next t ∧ t.DT = s.DT - 1 ∧ t.ST = s.ST - 1 ∧ t.dirty = false ∧
      t.trace = s.trace ++ (if 0 < s.ST then [.sound] else []) ++ (if s.dirty then [.frameOut s.fb] else []) ∧
      t.phase = .frameHead ∧ t.run = .running ∧ t.slot = s.slot ∧ t.pc = s.pc ∧ t.I = s.I ∧ t.SP = s.SP ∧
      RegsKept s t noReg ∧ BytesKept s t noByte ∧ t.fb = s.fb ∧ t.keys = s.keys ∧ t.len = s.len ∧ t.params = s.params ∧
      t.ports =
        (if s.dirty then
          (if 0 < s.ST then s.envTurn.ports.offer s.params .sound else s.envTurn.ports).offer s.params (.frameOut s.fb)
        else if 0 < s.ST then s.envTurn.ports.offer s.params .sound else s.envTurn.ports) ∧
      t.env = s.envTurn.env

/-- The key receipt: a delivered key goes to V[x], both timers are cleared, the block runs on in the same frame at the same
slot; with no key the block stays (spec/45_timer_keyboard.md R236; spec/40_execution_cycle.md T7; that the step then answers
the same block state is log entry 2). -/
def Obligations.KeyReceipt : Prop :=
  ∀ s x, s.Sized → s.run = .waitingKey x → s.phase = .inFrame →
    (s.envTurn.ports.deliveredKey = none → step s = .next s.envTurn) ∧
    (∀ k, s.envTurn.ports.deliveredKey = some k → k < 256 →
      ∃ t, step s = .next t ∧ (t.reg x).toNat = k ∧ t.DT = 0 ∧ t.ST = 0 ∧ t.run = .running ∧
        RegsKept s t (fun j => j = x) ∧ BytesKept s t noByte ∧ t.pc = s.pc ∧ t.I = s.I ∧ t.SP = s.SP ∧
        ScreenKept s t ∧ CycleKept s t ∧ t.trace = s.trace ∧
        t.ports = { s.envTurn.ports with keyEvents := s.envTurn.ports.keyEvents.tail } ∧
        t.env = s.envTurn.env)

/-- Halted and Faulted have no exit: after any number of steps the run state and all block state are what they were
(spec/40_execution_cycle.md R111, T8; spec/60_exceptions.md R254; that the step then answers the same block state is log
entry 2). -/
def Obligations.TerminalStatesStay : Prop :=
  ∀ k (s : State), (s.run = .halted ∨ ∃ r, s.run = .faulted r) →
    ∃ t : State, core.run k s = .next t ∧ t = { s with ports := t.ports, env := t.env }

/-- With the key-event sender gone, a block that waits for a key waits forever and changes nothing
(spec/45_timer_keyboard.md R236, decision D17; that the steps answer the same block state is log entry 2). -/
def Obligations.WaitWithoutSenderNeverEnds : Prop :=
  ∀ k (s : State) x, s.run = .waitingKey x → s.phase = .inFrame → s.ports.keyEventUp = false →
    ∃ t : State, core.run k s = .next t ∧ t = { s with ports := t.ports, env := t.env }

/-- Every step keeps the invariant of the machine, for every sane value of the parameters: registers of their number and
widths, memory canonical and below
MEM_SIZE, the program within PROG_MAX, SP even with its pair inside memory, keys and framebuffer of their sizes, slots within
the frame, run states in their phases, ports within their capacities. -/
def Obligations.StepKeepsInv : Prop :=
  ∀ s t : State, s.Inv → step s = .next t → t.Inv

/-- The reset state meets the invariant. -/
def Obligations.ResetMeetsInv : Prop := State.reset.Inv

/-- From every state that meets the invariant the step answers a next state: the model stops nowhere by fault or refusal
(spec/40_execution_cycle.md R111, R112; the model's choice in log entries 1, 2 and 19). -/
def Obligations.InvStepAnswersNext : Prop :=
  ∀ s : State, s.Inv → ∃ t, step s = .next t

/-- Output ports never feed back: two states that differ only in the output port buffers and connections take steps
that differ only there, trace and all block state equal (spec/60_exceptions.md R260). The ports' semantics are the
spec's decisions D18 and D19. -/
def Obligations.OutputPortsNeverFeedBack : Prop :=
  ∀ s t : State, s.forgetOutput = t.forgetOutput → forgetOutcome (step s) = forgetOutcome (step t)

/-- Reset values (spec/10_state.md R37), with nothing loaded (log entry 13). V, I, DT, ST, keys, fb and dirty are the spec's
decision D15 (log entry 11), the glyph bytes its decision D16 (log entry 10). -/
def Obligations.ResetValues : Prop :=
  State.reset.pc = 0x200 ∧ State.reset.SP = 0 ∧ State.reset.I = 0 ∧ State.reset.DT = 0 ∧
  State.reset.ST = 0 ∧ State.reset.V = List.replicate 16 0#8 ∧ (∀ j, State.reset.reg j = 0#8) ∧
  State.reset.keys = List.replicate 16 false ∧
  State.reset.fb = List.replicate 32 (List.replicate 64 false) ∧ State.reset.dirty = false ∧
  State.reset.run = .running ∧ State.reset.slot = 0 ∧ State.reset.phase = .frameHead ∧ State.reset.trace = [] ∧
  State.reset.len = 0 ∧ (∀ a, (a < 0x50 ∨ 0xA0 ≤ a) → State.reset.byte a = 0#8) ∧
  (∀ d r, d < 16 → r < 5 → State.reset.byte (0x50 + 5 * d + r) = Config.font.getD (5 * d + r) 0#8)

/-- Program load, under any parameters: a buffer of at most PROG_MAX (3584) bytes, whatever its bytes, gives the reset state
with the bytes at PROG_BASE, the bytes of FONT from FONT_BASE on and 0 at every other address, pc at PROG_BASE, and V, I, DT, ST, keys, fb and dirty from RESET_STATE (decision D15,
log entry 11); it meets the invariant where parameters and RESET_STATE are fit for it. A longer buffer is refused, the spec's
decision D20 (spec/70_reset_and_hazards.md R280, R281). FONT is a parameter (decision D16); its default is log entry 10.
The model's own, a design choice: that a PROG_BASE that does not fit PC_WIDTH bits is reduced to them (log entry 9). -/
def Obligations.LoadPlacesProgramOrRefuses : Prop :=
  ∀ params r program,
    (program.length ≤ params.progMax →
      ∃ s, load params r program = .next s ∧ s.len = program.length ∧ s.pc = params.progBase % 2 ^ params.pcWidth ∧
        s.SP = 0 ∧ s.run = .running ∧ s.phase = .frameHead ∧ s.slot = 0 ∧ s.trace = [] ∧ s.params = params ∧
        s.V = r.V ∧ s.I = r.I ∧ s.DT = r.DT ∧ s.ST = r.ST ∧ s.keys = r.keys ∧ s.fb = r.fb ∧ s.dirty = r.dirty ∧
        (params.Sane →
          (∀ k, (h : k < program.length) → s.byte (params.progBase + k) = program[k]) ∧
          s.pc = params.progBase ∧
          (r.V.length = params.nreg → r.I < 2 ^ params.iWidth → r.DT < 256 → r.ST < 256 →
            r.keys.length = params.nkeys → r.fb.shaped params = true → s.Inv)) ∧
        (∀ a, (a < params.progBase ∨ params.progBase + program.length ≤ a) →
          s.byte a = if params.fontBase ≤ a then params.font.getD (a - params.fontBase) 0#8 else 0#8)) ∧
    (params.progMax < program.length → load params r program = .refused (.programTooLong program.length))

/-- The ports (spec/60_exceptions.md R260, R261; the semantics are the spec's decisions D17, D18 and D19). Output: FIFOs of
their capacities; what finds one full or disconnected is dropped, the environment takes the oldest frame first and takes
sounds one by one. Key level: a vector of NKEYS flags offered to a connected port with room is held; offered to a full one it
overwrites the held one or is dropped, both admitted; a disconnected port always yields none. Key event: a key is handed over
exactly when the port is connected and has room, at capacity 0 only while the block waits and none is handed over yet; a
disconnected port never delivers. No move connects a port again. The model's own, design choices where
the spec says nothing: a disconnection loses held inputs and keeps held outputs (log entry 7); at other capacities than R6's
defaults, key levels queue and are taken oldest first (log entry 25), and the key-event port holds CAP_KEYEVENT keys and one
more while the block waits (log entry 26). -/
def Obligations.PortBufferRules : Prop :=
  ∀ (c : Params) (p : Ports),
    (∀ g, p.offer c (.frameOut g) =
      if p.frameUp = true ∧ p.frames.length < c.capFrame then { p with frames := p.frames ++ [g] } else p) ∧
    (p.offer c .sound = if p.soundUp = true ∧ p.sound < c.capSound then { p with sound := p.sound + 1 } else p) ∧
    (∀ x, p.offer c (.keyWait x) = p) ∧ (∀ a w, p.offer c (.unknownOpcode a w) = p) ∧
    (∀ b g rest, p.frames = g :: rest → p.move c b .takeFrame = { p with frames := rest }) ∧
    (∀ b, p.frames = [] → p.move c b .takeFrame = p) ∧
    (∀ b n, p.sound = n + 1 → p.move c b .takeSound = { p with sound := n }) ∧
    (∀ b, p.sound = 0 → p.move c b .takeSound = p) ∧
    (∀ b v r, p.keyLevelUp = true → v.length = c.nkeys → p.keyLevels.length < c.capKeyLevel →
      p.move c b (.offerKeys v r) = { p with keyLevels := p.keyLevels ++ [v] }) ∧
    (∀ b u v, p.keyLevelUp = true → v.length = c.nkeys → c.capKeyLevel = 1 → p.keyLevels = [u] →
      p.move c b (.offerKeys v true) = { p with keyLevels := [v] } ∧ p.move c b (.offerKeys v false) = p) ∧
    (∀ b v r, (p.keyLevelUp = false ∨ v.length ≠ c.nkeys) → p.move c b (.offerKeys v r) = p) ∧
    (∀ v rest, p.keyLevelUp = true → p.keyLevels = v :: rest → p.pendingKeys = some v) ∧
    (p.keyLevels = [] → p.pendingKeys = none) ∧ (p.keyLevelUp = false → p.pendingKeys = none) ∧
    (∀ b m, (p.keyLevelUp = false → (p.move c b m).keyLevelUp = false) ∧
      (p.keyEventUp = false → (p.move c b m).keyEventUp = false) ∧ (p.soundUp = false → (p.move c b m).soundUp = false) ∧
      (p.frameUp = false → (p.move c b m).frameUp = false)) ∧
    (∀ b q, p.move c b (.disconnect q) =
      match q with
      | .keyLevel => { p with keyLevelUp := false, keyLevels := [] }
      | .keyEvent => { p with keyEventUp := false, keyEvents := [] }
      | .sound => { p with soundUp := false }
      | .frame => { p with frameUp := false }) ∧
    (∀ b k, p.move c b (.deliverKey k) =
      if p.keyEventUp = true ∧ k < c.nkeys ∧ p.keyEvents.length < c.capKeyEvent + (if b = true then 1 else 0) then
        { p with keyEvents := p.keyEvents ++ [k] }
      else p) ∧
    (∀ k rest, p.keyEventUp = true → p.keyEvents = k :: rest → p.deliveredKey = some k) ∧
    (p.keyEvents = [] → p.deliveredKey = none) ∧ (p.keyEventUp = false → p.deliveredKey = none)

/-! ### Rules about all instructions -/

/-- No instruction refuses or stops the machine: exec answers a next state for every instruction in every state
(spec/30_encoding.md R78; spec/60_exceptions.md R250; that a fault of R251 is a next state is log entry 1). -/
def Obligations.EveryInstructionAnswersNext : Prop :=
  ∀ i s, ∃ t, exec i s = .next t

/-- Faults are precise: an instruction that faults leaves every field but the run state as it found it, and its record names
its address A = pc - 2 and its word (spec/60_exceptions.md R252, R251; log entries 1, 15; A below a pc of 2, log entry 16). -/
def Obligations.InstructionFaultsArePrecise : Prop :=
  ∀ i s t r, s.Safe → exec i s = .next t → t.run = .faulted r →
    t = { s with run := .faulted r } ∧ r.addr = s.pc - 2 ∧ r.word = some (encode i)

/-- The table of faults (spec/60_exceptions.md R251): with SP even and its pair inside memory, which the invariant
gives, each kind is raised only by the instructions and under the conditions the table lists, with the info it lists.
The four faults are the spec's decisions D1 to D4. That code 4's limit is I_WIDTH's is log entry 9. (A = pc - 2; below a pc of 2, which no run reaches, log entry 16.) -/
def Obligations.FaultsAreThoseOfTheTable : Prop :=
  ∀ i s t r, s.Safe → s.SP % 2 = 0 → s.SP + 1 < s.params.memSize → exec i s = .next t →
    t.run = .faulted r →
    (r.kind.code = 1 ∧
      ((∃ nnn, i = .call nnn ∧ s.params.memSize ≤ s.SP + 3 ∧ r.info = s.params.memSize) ∨
       (∃ x y n, i = .drw x y n ∧ 0 < n.toNat ∧ s.params.memSize < s.I + n.toNat ∧
         r.info = max s.I s.params.memSize) ∨
       (∃ x, i = .ldB x ∧ s.params.memSize ≤ s.I + 2 ∧ r.info = max s.I s.params.memSize) ∨
       (∃ x, (i = .storeRegs x ∨ i = .loadRegs x) ∧ s.params.memSize ≤ s.I + x.toNat ∧
         r.info = max s.I s.params.memSize))) ∨
    (r.kind.code = 2 ∧
      ∃ x, (i = .skp x ∨ i = .sknp x) ∧ s.params.nkeys ≤ (s.reg x).toNat ∧ r.info = (s.reg x).toNat) ∨
    (r.kind.code = 3 ∧ ∃ x, i = .ret x ∧ s.SP = 0 ∧ r.info = s.pc - 2) ∨
    (r.kind.code = 4 ∧
      ∃ x, i = .addI x ∧ 2 ^ s.params.iWidth ≤ s.I + (s.reg x).toNat ∧ r.info = s.I + (s.reg x).toNat)

/-- Only CALL, Fx33 and Fx55 write memory (spec/20_memory.md R50); what each writes is in its own statement. -/
def Obligations.OnlyCallBcdAndStoreWriteMemory : Prop :=
  ∀ i s t, exec i s = .next t → (∀ nnn, i ≠ .call nnn) → (∀ x, i ≠ .ldB x) → (∀ x, i ≠ .storeRegs x) → t.mem = s.mem

/-- Only CALL and RET move SP (spec/10_state.md R24, R38). -/
def Obligations.OnlyCallAndRetMoveSP : Prop :=
  ∀ i s t, exec i s = .next t → (∀ nnn, i ≠ .call nnn) → (∀ x, i ≠ .ret x) → t.SP = s.SP

/-- Only Annn, Fx1E and Fx29 write I (spec/10_state.md R25); only Fx15 writes DT and only Fx18 writes ST at execution
(R26, R27; Fx0A clears them at the receipt). -/
def Obligations.IndexAndTimerWriters : Prop :=
  ∀ i s t, exec i s = .next t →
    ((∀ nnn, i ≠ .ldI nnn) → (∀ x, i ≠ .addI x) → (∀ x, i ≠ .ldF x) → t.I = s.I) ∧
    ((∀ x, i ≠ .ldDTVx x) → t.DT = s.DT) ∧ ((∀ x, i ≠ .ldSTVx x) → t.ST = s.ST)

/-- Only CLS and DRW write the framebuffer (spec/10_state.md R29); they and the flush of Fx0A write dirty (R30). -/
def Obligations.OnlyClsAndDrwWriteFramebuffer : Prop :=
  ∀ i s t, exec i s = .next t → (∀ x, i ≠ .cls x) → (∀ x y n, i ≠ .drw x y n) →
    t.fb = s.fb ∧ ((∀ x, i ≠ .ldVxK x) → t.dirty = s.dirty)

/-- Exactly six operations write VF as a side effect: any other instruction that does not name VF as its destination, or
load it with Fx65 and x = F, leaves VF as it was (spec/10_state.md R22; spec/70_reset_and_hazards.md R290). -/
def Obligations.OnlySixOperationsWriteVFAsFlag : Prop :=
  ∀ i s t, exec i s = .next t →
    (∀ x y, i ≠ .addReg x y) → (∀ x y, i ≠ .subReg x y) → (∀ x y, i ≠ .shr x y) → (∀ x y, i ≠ .subbReg x y) →
    (∀ x y, i ≠ .shl x y) → (∀ x y n, i ≠ .drw x y n) →
    (∀ kk, i ≠ .ldImm vf kk) → (∀ kk, i ≠ .addImm vf kk) → (∀ y, i ≠ .movReg vf y) → (∀ y, i ≠ .orReg vf y) →
    (∀ y, i ≠ .andReg vf y) → (∀ y, i ≠ .xorReg vf y) → (∀ kk, i ≠ .rnd vf kk) → i ≠ .ldVxDT vf → i ≠ .loadRegs vf →
    t.reg vf = s.reg vf

/-- No instruction writes the key flags, the program length, the slot counter, the phase or the parameters: keys change only
at the drain (spec/10_state.md R28, R31, R33; spec/00_scope.md R6). -/
def Obligations.NoInstructionWritesKeysOrCycleState : Prop :=
  ∀ i s t, exec i s = .next t → CycleKept s t

/-! ### Control flow (spec/41_control_flow.md) -/

/-- RET with something on the stack (R130): pc is the big-endian pair at SP, SP goes down by 2, nothing else changes. The
model's own, a design choice, at an odd SP, which no run reaches: the pair is read as it stands, and SP = 1 becomes 0 (log
entry 17). -/
def Obligations.RetPopsReturnAddress : Prop :=
  ∀ x s, s.params.Sane → s.SP ≠ 0 → s.SP + 1 < s.params.memSize →
    ∃ t, exec (.ret x) s = .next t ∧
      t.pc = (s.byte s.SP).toNat * 256 + (s.byte (s.SP + 1)).toNat ∧
      t.SP = s.SP - 2 ∧ RegsKept s t noReg ∧ BytesKept s t noByte ∧ t.I = s.I ∧ t.DT = s.DT ∧ t.ST = s.ST ∧
      ScreenKept s t ∧ CycleKept s t ∧ OutsideKept s t

/-- RET with an empty stack faults with StackUnderflow(A) (R130, decision D3). (A = pc - 2; below a pc of 2, which no run
reaches, log entry 16.) -/
def Obligations.RetOnEmptyStackFaults : Prop :=
  ∀ x s, s.SP = 0 → FaultsWith (exec (.ret x) s) s .stackUnderflow (encode (.ret x)) (s.pc - 2)

/-- JP nnn and JP V0, nnn (R131, R137): pc is nnn, or the exact sum of nnn and V0; nothing else changes. That the sum
is not reduced to 12 bits is the spec's decision D27. -/
def Obligations.JumpsSetPc : Prop :=
  ∀ nnn s, s.params.Sane →
    (∃ t, exec (.jp nnn) s = .next t ∧ t.pc = nnn.toNat ∧ OnlyPcChanges s t) ∧
    (∃ t, exec (.jpV0 nnn) s = .next t ∧ t.pc = nnn.toNat + (s.reg 0#4).toNat ∧ OnlyPcChanges s t)

/-- CALL nnn (R132): SP goes up by 2, the advanced pc is stored big-endian at the new SP, pc is nnn; every other byte of
memory reads as before and nothing else changes. -/
def Obligations.CallPushesReturnAddress : Prop :=
  ∀ nnn s, s.Sized → s.memWf = true → s.SP + 3 < s.params.memSize →
    ∃ t, exec (.call nnn) s = .next t ∧ t.SP = s.SP + 2 ∧ t.pc = nnn.toNat ∧
      t.byte (s.SP + 2) = highByte (BitVec.ofNat 16 s.pc) ∧ t.byte (s.SP + 3) = lowByte (BitVec.ofNat 16 s.pc) ∧
      (t.byte (s.SP + 2)).toNat * 256 + (t.byte (s.SP + 3)).toNat = s.pc ∧
      BytesKept s t (fun a => a = s.pushAddr ∨ a = s.pushAddr + 1) ∧ RegsKept s t noReg ∧ t.I = s.I ∧ t.DT = s.DT ∧
      t.ST = s.ST ∧ ScreenKept s t ∧ CycleKept s t ∧ OutsideKept s t

/-- CALL whose pair does not fit memory faults before any write with the lowest address out of range: at SP = MEM_SIZE - 2
(4094), with an even MEM_SIZE the one value a run reaches, MemoryOutOfRange(4096) (R132, decision D1; elsewhere the info is
the model's reading, log entry 18). (A = pc - 2; below a pc of 2, log entry 16.) -/
def Obligations.CallPastMemoryFaults : Prop :=
  ∀ nnn s, s.params.memSize ≤ s.SP + 3 →
    FaultsWith (exec (.call nnn) s) s .memoryOutOfRange (encode (.call nnn)) (max (s.SP + 2) s.params.memSize)

/-- The four skips (R133 to R136): pc goes up by 2 more exactly when the condition holds, for every value of the ignored low
nibble; nothing else changes. That n is ignored is the spec's decision D12. The model's own, design choices: that a sum that
does not fit PC_WIDTH bits, which no run at sane parameters makes, is reduced to them (log entries 9, 16). -/
def Obligations.SkipsAddTwo : Prop :=
  ∀ x y kk n s,
    (∃ t, exec (.seImm x kk) s = .next t ∧ t.pc = (if s.reg x = kk then (s.pc + 2) % 2 ^ s.params.pcWidth else s.pc) ∧ OnlyPcChanges s t) ∧
    (∃ t, exec (.sneImm x kk) s = .next t ∧ t.pc = (if s.reg x = kk then s.pc else (s.pc + 2) % 2 ^ s.params.pcWidth) ∧ OnlyPcChanges s t) ∧
    (∃ t, exec (.seReg x y n) s = .next t ∧ t.pc = (if s.reg x = s.reg y then (s.pc + 2) % 2 ^ s.params.pcWidth else s.pc) ∧
      OnlyPcChanges s t) ∧
    (∃ t, exec (.sneReg x y n) s = .next t ∧ t.pc = (if s.reg x = s.reg y then s.pc else (s.pc + 2) % 2 ^ s.params.pcWidth) ∧
      OnlyPcChanges s t)

/-- Call and return round trip (R139): any N nested calls, from any SP with room for them, wherever they stand and whatever
their targets, followed by N returns, end with pc the value the first call executed with (A + 2) and SP what it was; no
fault is taken and registers are unchanged. -/
def Obligations.CallReturnRoundTrip : Prop :=
  ∀ pc nnn rest s, s.params.Sane → pc < 0x10000 → s.memWf = true → s.SP + 2 * (rest.length + 1) + 1 < s.params.memSize →
    ∃ t u, callSeq ((pc, nnn) :: rest) s = .next t ∧ t.SP = s.SP + 2 * (rest.length + 1) ∧
      retSeq (rest.length + 1) t = .next u ∧ u.pc = pc ∧ u.SP = s.SP ∧ u.run = s.run ∧ RegsKept s u noReg

/-! ### Register arithmetic (spec/42_register_arith.md) -/

/-- LD Vx, kk (R152). -/
def Obligations.LoadImmediate : Prop :=
  ∀ x kk s, s.Sized → ∃ t, exec (.ldImm x kk) s = .next t ∧ t.reg x = kk ∧ OnlyRegsChange s t (fun j => j = x)

/-- ADD Vx, kk (R153): modulo 256, no flag. -/
def Obligations.AddImmediateWraps : Prop :=
  ∀ x kk s, s.Sized → ∃ t, exec (.addImm x kk) s = .next t ∧ (t.reg x).toNat = ((s.reg x).toNat + kk.toNat) % 256 ∧
    OnlyRegsChange s t (fun j => j = x)

/-- MOV, OR, AND and XOR Vx, Vy (R154 to R157): VF is written only as the destination. MOV's direction and the
unwritten VF are the spec's decisions D7 and D8. -/
def Obligations.MoveAndBitwise : Prop :=
  ∀ x y s, s.Sized →
    (∃ t, exec (.movReg x y) s = .next t ∧ t.reg x = s.reg y ∧ OnlyRegsChange s t (fun j => j = x)) ∧
    (∃ t, exec (.orReg x y) s = .next t ∧ t.reg x = s.reg x ||| s.reg y ∧ OnlyRegsChange s t (fun j => j = x)) ∧
    (∃ t, exec (.andReg x y) s = .next t ∧ t.reg x = s.reg x &&& s.reg y ∧ OnlyRegsChange s t (fun j => j = x)) ∧
    (∃ t, exec (.xorReg x y) s = .next t ∧ t.reg x = s.reg x ^^^ s.reg y ∧ OnlyRegsChange s t (fun j => j = x))

/-- ADD Vx, Vy (R158): the sum modulo 256, VF the carry. With x = F the register holds the one that the parameter VF_LAST
writes last (R151, the spec's decision D5, log entry 8); both values of it are covered. -/
def Obligations.AddRegisterSetsCarry : Prop :=
  ∀ x y s, s.Sized → ∃ t, exec (.addReg x y) s = .next t ∧
    ResultAndFlag s t x (((s.reg x).toNat + (s.reg y).toNat) % 256)
      (if 255 < (s.reg x).toNat + (s.reg y).toNat then 1 else 0) ∧
    OnlyRegsChange s t (fun j => j = x ∨ j = vf)

/-- SUB Vx, Vy and SUBB Vx, Vy (R159, R161): the difference modulo 256, VF 1 iff the minuend strictly exceeds the
subtrahend; with x = F the register holds the one that the parameter VF_LAST writes last (R151, decision D5, log entry 8).
SUBB's operands are the spec's decision D7. -/
def Obligations.SubtractsSetNoBorrow : Prop :=
  ∀ x y s, s.Sized →
    (∃ t, exec (.subReg x y) s = .next t ∧
      ResultAndFlag s t x ((256 + (s.reg x).toNat - (s.reg y).toNat) % 256)
        (if (s.reg y).toNat < (s.reg x).toNat then 1 else 0) ∧
      OnlyRegsChange s t (fun j => j = x ∨ j = vf)) ∧
    (∃ t, exec (.subbReg x y) s = .next t ∧
      ResultAndFlag s t x ((256 + (s.reg y).toNat - (s.reg x).toNat) % 256)
        (if (s.reg x).toNat < (s.reg y).toNat then 1 else 0) ∧
      OnlyRegsChange s t (fun j => j = x ∨ j = vf))

/-- SHR Vx and SHL Vx (R160, R162): V[x] halved, or doubled modulo 256, VF the bit shifted out, whatever y is; with
x = F the register holds the one that the parameter VF_LAST writes last (R151, decision D5, log entry 8). That the input is
V[x] is the spec's decision D6. -/
def Obligations.ShiftsSetShiftedOutBit : Prop :=
  ∀ x y s, s.Sized →
    (∃ t, exec (.shr x y) s = .next t ∧
      ResultAndFlag s t x ((s.reg x).toNat / 2) ((s.reg x).toNat % 2) ∧
      OnlyRegsChange s t (fun j => j = x ∨ j = vf)) ∧
    (∃ t, exec (.shl x y) s = .next t ∧
      ResultAndFlag s t x (2 * (s.reg x).toNat % 256) ((s.reg x).toNat / 128) ∧
      OnlyRegsChange s t (fun j => j = x ∨ j = vf))

/-- RND Vx, kk (R163): some byte d ANDed with kk; of the block only V[x] changes. The statement holds for every value of the
free draw (log entry 5); the free input is the spec's decision D18. The model's own, a design choice (log entry 4): the list of
bytes already fixed, whose head is d where there is one and is taken off, and the count of draws, which goes up by 1. -/
def Obligations.RandomByteMasked : Prop :=
  ∀ x kk s, s.Sized → ∃ d t, exec (.rnd x kk) s = .next t ∧ t.reg x = d &&& kk ∧
    (∀ b rest, s.env.bytes = b :: rest → d = b) ∧
    RegsKept s t (fun j => j = x) ∧ BytesKept s t noByte ∧ t.pc = s.pc ∧ SpecialsKept s t ∧ ScreenKept s t ∧
    CycleKept s t ∧ t.run = s.run ∧ t.trace = s.trace ∧ t.ports = s.ports ∧ t.env.script = s.env.script ∧
    t.env.turns = s.env.turns ∧ t.env.bytes = s.env.bytes.tail ∧ t.env.draws = s.env.draws + 1

/-! ### Index and memory (spec/43_memory_index.md) -/

/-- LD I, nnn and LD F, Vx (R180, R183): I is nnn, or FONT_BASE + GLYPH_BYTES * V[x], at R6's defaults 0x50 + 5 * V[x], for
parameters at which I is wide enough for both; nothing else changes. That V[x] is not masked is the spec's decision D27. -/
def Obligations.LoadIndexAndGlyph : Prop :=
  ∀ nnn x s, s.params.Sane →
    (∃ t, exec (.ldI nnn) s = .next t ∧ t.I = nnn.toNat ∧ OnlyIChanges s t) ∧
    (∃ t, exec (.ldF x) s = .next t ∧ t.I = s.params.fontBase + s.params.glyphBytes * (s.reg x).toNat ∧
      OnlyIChanges s t)

/-- ADD I, Vx (R182): the exact sum while it fits I_WIDTH (16) bits, VF not written; a sum that does not, by default one above
0xFFFF, faults with IndexOverflow(sum). The fault is the spec's decision D4. That the limit is I_WIDTH's is log entry 9.
(A = pc - 2; below a pc of 2, log entry 16.) -/
def Obligations.AddIndexOrOverflow : Prop :=
  ∀ x s,
    (s.I + (s.reg x).toNat < 2 ^ s.params.iWidth →
      ∃ t, exec (.addI x) s = .next t ∧ t.I = s.I + (s.reg x).toNat ∧ OnlyIChanges s t) ∧
    (2 ^ s.params.iWidth ≤ s.I + (s.reg x).toNat →
      FaultsWith (exec (.addI x) s) s .indexOverflow (encode (.addI x)) (s.I + (s.reg x).toNat))

/-- LD B, Vx (R184): the decimal digits of V[x] at I, I + 1, I + 2; recombined they give V[x]; every other byte and
everything else, I too, is unchanged. -/
def Obligations.BcdStoresDigits : Prop :=
  ∀ x s, s.memWf = true → s.I + 2 < s.params.memSize →
    ∃ t, exec (.ldB x) s = .next t ∧
      (t.byte s.I).toNat = (s.reg x).toNat / 100 ∧
      (t.byte (s.I + 1)).toNat = (s.reg x).toNat / 10 % 10 ∧
      (t.byte (s.I + 2)).toNat = (s.reg x).toNat % 10 ∧
      100 * (t.byte s.I).toNat + 10 * (t.byte (s.I + 1)).toNat +
        (t.byte (s.I + 2)).toNat = (s.reg x).toNat ∧
      OnlyBytesChange s t (fun a => s.I ≤ a ∧ a < s.I + 3)

/-- LD [I], Vx (R185): V0 to Vx at I upward, every other byte and everything else, I too, unchanged. That I does not
move is the spec's decision D9. -/
def Obligations.StoreBlockCopiesRegisters : Prop :=
  ∀ x s, s.memWf = true → s.I + x.toNat < s.params.memSize →
    ∃ t, exec (.storeRegs x) s = .next t ∧
      (∀ j : Reg, j.toNat ≤ x.toNat → t.byte (s.I + j.toNat) = s.reg j) ∧
      OnlyBytesChange s t (fun a => s.I ≤ a ∧ a < s.I + x.toNat + 1)

/-- LD Vx, [I] (R186): V0 to Vx from I upward, every other register and everything else, I too, unchanged. That I does
not move is the spec's decision D9. -/
def Obligations.LoadBlockCopiesMemory : Prop :=
  ∀ x s, s.Sized → s.I + x.toNat < s.params.memSize →
    ∃ t, exec (.loadRegs x) s = .next t ∧
      (∀ j : Reg, j.toNat ≤ x.toNat → t.reg j = s.byte (s.I + j.toNat)) ∧
      OnlyRegsChange s t (fun j => j.toNat ≤ x.toNat)

/-- The range check of the I-relative instructions (R181, R204 of spec/44_display_raster.md): a range that ends past
memory faults with the lowest address out of range, before any write. The fault is the spec's decision D1. (A = pc - 2; below a
pc of 2, log entry 16.) -/
def Obligations.IndexedAccessPastMemoryFaults : Prop :=
  ∀ x y n s,
    (s.params.memSize < s.I + 3 →
      FaultsWith (exec (.ldB x) s) s .memoryOutOfRange (encode (.ldB x)) (max s.I s.params.memSize)) ∧
    (s.params.memSize < s.I + (x.toNat + 1) →
      FaultsWith (exec (.storeRegs x) s) s .memoryOutOfRange (encode (.storeRegs x))
        (max s.I s.params.memSize) ∧
      FaultsWith (exec (.loadRegs x) s) s .memoryOutOfRange (encode (.loadRegs x))
        (max s.I s.params.memSize)) ∧
    (0 < n.toNat → s.params.memSize < s.I + n.toNat →
      FaultsWith (exec (.drw x y n) s) s .memoryOutOfRange (encode (.drw x y n))
        (max s.I s.params.memSize))

/-! ### Display (spec/44_display_raster.md) -/

/-- CLS (R200): every pixel off, dirty set, nothing else changes, whatever the ignored bits. That dirty is set is the
spec's decision D10. -/
def Obligations.ClearScreen : Prop :=
  ∀ x s, ∃ t, exec (.cls x) s = .next t ∧ (∀ r c, t.fb.pixel r c = false) ∧ t.fb.shaped s.params = true ∧
    t.dirty = true ∧ RegsKept s t noReg ∧ BytesKept s t noByte ∧ t.pc = s.pc ∧ SpecialsKept s t ∧ CycleKept s t ∧ OutsideKept s t

/-- DRW in closed form (R209, with R202, R203, R205 to R208): each on-screen pixel is XORed with the sprite bit that
covers it, VF is 1 iff a set bit meets a pixel that is on, dirty is set iff a set bit lands on screen; nothing else
changes. With n = 0 it holds for every I. The origin from the old VF is the spec's decision D11. -/
def Obligations.DrawIsXorOfSprite : Prop :=
  ∀ x y n s, s.Sized → s.fb.shaped s.params = true → (n = 0#4 ∨ s.I + n.toNat ≤ s.params.memSize) →
    ∃ t, exec (.drw x y n) s = .next t ∧
      t.fb.shaped s.params = true ∧
      (∀ R C, R < s.params.fbRows → C < s.params.fbCols → t.fb.pixel R C = (s.fb.pixel R C ^^ s.spriteBit x y n R C)) ∧
      ((∃ R C, R < s.params.fbRows ∧ C < s.params.fbCols ∧ s.spriteBit x y n R C = true ∧ s.fb.pixel R C = true) →
        t.reg vf = 1#8) ∧
      ((∀ R C, R < s.params.fbRows → C < s.params.fbCols → s.spriteBit x y n R C = true → s.fb.pixel R C = false) →
        t.reg vf = 0#8) ∧
      (t.dirty = true ↔
        s.dirty = true ∨ ∃ R C, R < s.params.fbRows ∧ C < s.params.fbCols ∧ s.spriteBit x y n R C = true) ∧
      RegsKept s t (fun j => j = vf) ∧ BytesKept s t noByte ∧ t.pc = s.pc ∧ SpecialsKept s t ∧ CycleKept s t ∧
      OutsideKept s t

/-- Drawing the same sprite twice restores the grid, leaves VF with the second draw's collisions and dirty set if anything
landed on screen (R210), for x and y other than F. -/
def Obligations.DrawTwiceRestoresScreen : Prop :=
  ∀ x y n s, s.Sized → x ≠ vf → y ≠ vf → s.fb.shaped s.params = true →
    (n = 0#4 ∨ s.I + n.toNat ≤ s.params.memSize) →
    ∃ t u, exec (.drw x y n) s = .next t ∧ exec (.drw x y n) t = .next u ∧
      (∀ R C, R < s.params.fbRows → C < s.params.fbCols → u.fb.pixel R C = s.fb.pixel R C) ∧
      ((∃ R C, R < s.params.fbRows ∧ C < s.params.fbCols ∧ s.spriteBit x y n R C = true) → u.dirty = true) ∧
      (u.reg vf = 1#8 ↔
        ∃ R C, R < s.params.fbRows ∧ C < s.params.fbCols ∧ s.spriteBit x y n R C = true ∧ s.fb.pixel R C = false)

/-! ### Timers and keyboard (spec/45_timer_keyboard.md) -/

/-- SKP Vx and SKNP Vx with a key index (R230, R231): pc goes up by 2 more exactly when the key is down, or is not;
nothing else changes. The model's own, design choices: that a sum that does not fit PC_WIDTH bits, which no run at sane
parameters makes, is reduced to them (log entries 9, 16). -/
def Obligations.KeySkips : Prop :=
  ∀ x s, (s.reg x).toNat < s.params.nkeys →
    (∃ t, exec (.skp x) s = .next t ∧ t.pc = (if s.keys.getD (s.reg x).toNat false = true then (s.pc + 2) % 2 ^ s.params.pcWidth else s.pc) ∧
      OnlyPcChanges s t) ∧
    (∃ t, exec (.sknp x) s = .next t ∧ t.pc = (if s.keys.getD (s.reg x).toNat false = true then s.pc else (s.pc + 2) % 2 ^ s.params.pcWidth) ∧
      OnlyPcChanges s t)

/-- SKP Vx and SKNP Vx with V[x] at or above NKEYS, by default above 15, fault with KeyIndexOutOfRange(V[x]) (R230, R231,
decision D2). (A = pc - 2; below a pc of 2, log entry 16.) -/
def Obligations.KeyIndexAboveFifteenFaults : Prop :=
  ∀ x s, s.params.nkeys ≤ (s.reg x).toNat →
    FaultsWith (exec (.skp x) s) s .keyIndexOutOfRange (encode (.skp x)) (s.reg x).toNat ∧
    FaultsWith (exec (.sknp x) s) s .keyIndexOutOfRange (encode (.sknp x)) (s.reg x).toNat

/-- The timer moves (R232 to R234): V[x] takes DT, DT takes V[x], ST takes V[x]; nothing else changes, nothing is emitted. -/
def Obligations.TimerMoves : Prop :=
  ∀ x s, s.Sized →
    (∃ t, exec (.ldVxDT x) s = .next t ∧ (t.reg x).toNat = s.DT ∧ OnlyRegsChange s t (fun j => j = x)) ∧
    (∃ t, exec (.ldDTVx x) s = .next t ∧ t.DT = (s.reg x).toNat ∧ RegsKept s t noReg ∧ BytesKept s t noByte ∧ t.pc = s.pc ∧
      t.I = s.I ∧ t.SP = s.SP ∧ t.ST = s.ST ∧ ScreenKept s t ∧ CycleKept s t ∧ OutsideKept s t) ∧
    (∃ t, exec (.ldSTVx x) s = .next t ∧ t.ST = (s.reg x).toNat ∧ RegsKept s t noReg ∧ BytesKept s t noByte ∧ t.pc = s.pc ∧
      t.I = s.I ∧ t.SP = s.SP ∧ t.DT = s.DT ∧ ScreenKept s t ∧ CycleKept s t ∧ OutsideKept s t)

/-- LD Vx, K, the issue (R235): the grid is flushed first if dirty, then KeyWait(x) is emitted and the block waits; the
frame is offered to its port; no register, timer or byte changes. -/
def Obligations.KeyWaitFlushesThenWaits : Prop :=
  ∀ x s, ∃ t, exec (.ldVxK x) s = .next t ∧ t.run = .waitingKey x ∧ t.dirty = false ∧
    t.trace = s.trace ++ (if s.dirty then [.frameOut s.fb] else []) ++ [.keyWait x] ∧
    t.ports = (if s.dirty then s.ports.offer s.params (.frameOut s.fb) else s.ports) ∧ t.fb = s.fb ∧
    RegsKept s t noReg ∧ BytesKept s t noByte ∧ t.pc = s.pc ∧ SpecialsKept s t ∧ CycleKept s t ∧ t.env = s.env

/-! ### The no-op rows (spec/40_execution_cycle.md R108) -/

/-- A no-op of each class emits UnknownOpcode(A, w), with its own address and whole word, and changes nothing else. The
event is the spec's decision D23. (A = pc - 2; below a pc of 2, which no run reaches, log entry 16.) -/
def Obligations.NoOpsOnlyLog : Prop :=
  ∀ i s, i.isNoOp = true →
    ∃ t, exec i s = .next t ∧ t.trace = s.trace ++ [.unknownOpcode (s.pc - 2) (encode i)] ∧
      RegsKept s t noReg ∧ BytesKept s t noByte ∧ t.pc = s.pc ∧ SpecialsKept s t ∧ ScreenKept s t ∧ CycleKept s t ∧
      t.run = s.run ∧ t.ports = s.ports ∧ t.env = s.env

/-! ### The parameters (spec/00_scope.md R6) -/

/-- The parameters' defaults (spec/00_scope.md R6): every value of its table, with IPF 33, the floor of FREQ / FRAME_HZ
(decision D13), and VF_LAST true (decision D5); they are sane. FONT, the conventional table (decision D16), is log entry 10. -/
def Obligations.ParametersAtReset : Prop :=
  let p := State.reset.params
  p.memSize = 4096 ∧ p.nreg = 16 ∧ p.iWidth = 16 ∧ p.pcWidth = 16 ∧ p.spWidth = 16 ∧ p.timerWidth = 8 ∧
    p.nkeys = 16 ∧ p.fbCols = 64 ∧ p.fbRows = 32 ∧ p.fontBase = 0x50 ∧ p.glyphBytes = 5 ∧ p.font = Config.font ∧
    p.font.length = 80 ∧ p.progBase = 0x200 ∧ p.progMax = 3584 ∧ p.freq = 2000 ∧ p.frameHz = 60 ∧ p.ipf = 33 ∧
    p.ipf = p.floorBudget ∧ p.vfLast = true ∧ p.capKeyLevel = 1 ∧ p.capKeyEvent = 0 ∧ p.capSound = 1 ∧ p.capFrame = 2 ∧
    p.Sane
end

