-- ==== Sys2Proof/Laws/State.lean ====
section
/-!
SUPPORT. What reducing to a width does, and what each named update of Ops.lean and Flags.lean does to each field of State: one lemma a field, so that no later
proof unfolds a record update.
-/

namespace Sys2Proof.Machine

/-! ### setReg -/

@[simp] theorem setReg_mem (s : State) (x : Reg) (v : Byte) : (s.setReg x v).mem = s.mem := rfl
@[simp] theorem setReg_V (s : State) (x : Reg) (v : Byte) : (s.setReg x v).V = s.V.set x.toNat v := rfl
@[simp] theorem setReg_I (s : State) (x : Reg) (v : Byte) : (s.setReg x v).I = s.I := rfl
@[simp] theorem setReg_pc (s : State) (x : Reg) (v : Byte) : (s.setReg x v).pc = s.pc := rfl
@[simp] theorem setReg_SP (s : State) (x : Reg) (v : Byte) : (s.setReg x v).SP = s.SP := rfl
@[simp] theorem setReg_DT (s : State) (x : Reg) (v : Byte) : (s.setReg x v).DT = s.DT := rfl
@[simp] theorem setReg_ST (s : State) (x : Reg) (v : Byte) : (s.setReg x v).ST = s.ST := rfl
@[simp] theorem setReg_keys (s : State) (x : Reg) (v : Byte) : (s.setReg x v).keys = s.keys := rfl
@[simp] theorem setReg_fb (s : State) (x : Reg) (v : Byte) : (s.setReg x v).fb = s.fb := rfl
@[simp] theorem setReg_dirty (s : State) (x : Reg) (v : Byte) : (s.setReg x v).dirty = s.dirty := rfl
@[simp] theorem setReg_len (s : State) (x : Reg) (v : Byte) : (s.setReg x v).len = s.len := rfl
@[simp] theorem setReg_run (s : State) (x : Reg) (v : Byte) : (s.setReg x v).run = s.run := rfl
@[simp] theorem setReg_slot (s : State) (x : Reg) (v : Byte) : (s.setReg x v).slot = s.slot := rfl
@[simp] theorem setReg_phase (s : State) (x : Reg) (v : Byte) : (s.setReg x v).phase = s.phase := rfl
@[simp] theorem setReg_trace (s : State) (x : Reg) (v : Byte) : (s.setReg x v).trace = s.trace := rfl
@[simp] theorem setReg_params (s : State) (x : Reg) (v : Byte) : (s.setReg x v).params = s.params := rfl
@[simp] theorem setReg_ports (s : State) (x : Reg) (v : Byte) : (s.setReg x v).ports = s.ports := rfl
@[simp] theorem setReg_env (s : State) (x : Reg) (v : Byte) : (s.setReg x v).env = s.env := rfl

/-! ### narrow -/

/-- A value that fits a narrower width is kept. -/
theorem narrow_of_fits {width k v : Nat} (hv : v < 2 ^ k) (hk : k ≤ width) : narrow width v = v :=
  Nat.mod_eq_of_lt (Nat.lt_of_lt_of_le hv (Nat.pow_le_pow_right (by omega) hk))

/-- A register never holds more than its width. -/
theorem narrow_lt (width v : Nat) : narrow width v < 2 ^ width := Nat.mod_lt _ (Nat.two_pow_pos width)

theorem narrow_le (width v : Nat) : narrow width v ≤ v := Nat.mod_le _ _

/-! ### setPc -/

@[simp] theorem setPc_mem (s : State) (v : Nat) : (s.setPc v).mem = s.mem := rfl
@[simp] theorem setPc_V (s : State) (v : Nat) : (s.setPc v).V = s.V := rfl
@[simp] theorem setPc_I (s : State) (v : Nat) : (s.setPc v).I = s.I := rfl
@[simp] theorem setPc_pc (s : State) (v : Nat) : (s.setPc v).pc = narrow s.params.pcWidth v := rfl
@[simp] theorem setPc_SP (s : State) (v : Nat) : (s.setPc v).SP = s.SP := rfl
@[simp] theorem setPc_DT (s : State) (v : Nat) : (s.setPc v).DT = s.DT := rfl
@[simp] theorem setPc_ST (s : State) (v : Nat) : (s.setPc v).ST = s.ST := rfl
@[simp] theorem setPc_keys (s : State) (v : Nat) : (s.setPc v).keys = s.keys := rfl
@[simp] theorem setPc_fb (s : State) (v : Nat) : (s.setPc v).fb = s.fb := rfl
@[simp] theorem setPc_dirty (s : State) (v : Nat) : (s.setPc v).dirty = s.dirty := rfl
@[simp] theorem setPc_len (s : State) (v : Nat) : (s.setPc v).len = s.len := rfl
@[simp] theorem setPc_run (s : State) (v : Nat) : (s.setPc v).run = s.run := rfl
@[simp] theorem setPc_slot (s : State) (v : Nat) : (s.setPc v).slot = s.slot := rfl
@[simp] theorem setPc_phase (s : State) (v : Nat) : (s.setPc v).phase = s.phase := rfl
@[simp] theorem setPc_trace (s : State) (v : Nat) : (s.setPc v).trace = s.trace := rfl
@[simp] theorem setPc_params (s : State) (v : Nat) : (s.setPc v).params = s.params := rfl
@[simp] theorem setPc_ports (s : State) (v : Nat) : (s.setPc v).ports = s.ports := rfl
@[simp] theorem setPc_env (s : State) (v : Nat) : (s.setPc v).env = s.env := rfl

/-! ### setSP -/

@[simp] theorem setSP_mem (s : State) (v : Nat) : (s.setSP v).mem = s.mem := rfl
@[simp] theorem setSP_V (s : State) (v : Nat) : (s.setSP v).V = s.V := rfl
@[simp] theorem setSP_I (s : State) (v : Nat) : (s.setSP v).I = s.I := rfl
@[simp] theorem setSP_pc (s : State) (v : Nat) : (s.setSP v).pc = s.pc := rfl
@[simp] theorem setSP_SP (s : State) (v : Nat) : (s.setSP v).SP = narrow s.params.spWidth v := rfl
@[simp] theorem setSP_DT (s : State) (v : Nat) : (s.setSP v).DT = s.DT := rfl
@[simp] theorem setSP_ST (s : State) (v : Nat) : (s.setSP v).ST = s.ST := rfl
@[simp] theorem setSP_keys (s : State) (v : Nat) : (s.setSP v).keys = s.keys := rfl
@[simp] theorem setSP_fb (s : State) (v : Nat) : (s.setSP v).fb = s.fb := rfl
@[simp] theorem setSP_dirty (s : State) (v : Nat) : (s.setSP v).dirty = s.dirty := rfl
@[simp] theorem setSP_len (s : State) (v : Nat) : (s.setSP v).len = s.len := rfl
@[simp] theorem setSP_run (s : State) (v : Nat) : (s.setSP v).run = s.run := rfl
@[simp] theorem setSP_slot (s : State) (v : Nat) : (s.setSP v).slot = s.slot := rfl
@[simp] theorem setSP_phase (s : State) (v : Nat) : (s.setSP v).phase = s.phase := rfl
@[simp] theorem setSP_trace (s : State) (v : Nat) : (s.setSP v).trace = s.trace := rfl
@[simp] theorem setSP_params (s : State) (v : Nat) : (s.setSP v).params = s.params := rfl
@[simp] theorem setSP_ports (s : State) (v : Nat) : (s.setSP v).ports = s.ports := rfl
@[simp] theorem setSP_env (s : State) (v : Nat) : (s.setSP v).env = s.env := rfl

/-! ### setI -/

@[simp] theorem setI_mem (s : State) (v : Nat) : (s.setI v).mem = s.mem := rfl
@[simp] theorem setI_V (s : State) (v : Nat) : (s.setI v).V = s.V := rfl
@[simp] theorem setI_I (s : State) (v : Nat) : (s.setI v).I = narrow s.params.iWidth v := rfl
@[simp] theorem setI_pc (s : State) (v : Nat) : (s.setI v).pc = s.pc := rfl
@[simp] theorem setI_SP (s : State) (v : Nat) : (s.setI v).SP = s.SP := rfl
@[simp] theorem setI_DT (s : State) (v : Nat) : (s.setI v).DT = s.DT := rfl
@[simp] theorem setI_ST (s : State) (v : Nat) : (s.setI v).ST = s.ST := rfl
@[simp] theorem setI_keys (s : State) (v : Nat) : (s.setI v).keys = s.keys := rfl
@[simp] theorem setI_fb (s : State) (v : Nat) : (s.setI v).fb = s.fb := rfl
@[simp] theorem setI_dirty (s : State) (v : Nat) : (s.setI v).dirty = s.dirty := rfl
@[simp] theorem setI_len (s : State) (v : Nat) : (s.setI v).len = s.len := rfl
@[simp] theorem setI_run (s : State) (v : Nat) : (s.setI v).run = s.run := rfl
@[simp] theorem setI_slot (s : State) (v : Nat) : (s.setI v).slot = s.slot := rfl
@[simp] theorem setI_phase (s : State) (v : Nat) : (s.setI v).phase = s.phase := rfl
@[simp] theorem setI_trace (s : State) (v : Nat) : (s.setI v).trace = s.trace := rfl
@[simp] theorem setI_params (s : State) (v : Nat) : (s.setI v).params = s.params := rfl
@[simp] theorem setI_ports (s : State) (v : Nat) : (s.setI v).ports = s.ports := rfl
@[simp] theorem setI_env (s : State) (v : Nat) : (s.setI v).env = s.env := rfl

/-! ### setDT -/

@[simp] theorem setDT_mem (s : State) (v : Nat) : (s.setDT v).mem = s.mem := rfl
@[simp] theorem setDT_V (s : State) (v : Nat) : (s.setDT v).V = s.V := rfl
@[simp] theorem setDT_I (s : State) (v : Nat) : (s.setDT v).I = s.I := rfl
@[simp] theorem setDT_pc (s : State) (v : Nat) : (s.setDT v).pc = s.pc := rfl
@[simp] theorem setDT_SP (s : State) (v : Nat) : (s.setDT v).SP = s.SP := rfl
@[simp] theorem setDT_DT (s : State) (v : Nat) : (s.setDT v).DT = narrow s.params.timerWidth v := rfl
@[simp] theorem setDT_ST (s : State) (v : Nat) : (s.setDT v).ST = s.ST := rfl
@[simp] theorem setDT_keys (s : State) (v : Nat) : (s.setDT v).keys = s.keys := rfl
@[simp] theorem setDT_fb (s : State) (v : Nat) : (s.setDT v).fb = s.fb := rfl
@[simp] theorem setDT_dirty (s : State) (v : Nat) : (s.setDT v).dirty = s.dirty := rfl
@[simp] theorem setDT_len (s : State) (v : Nat) : (s.setDT v).len = s.len := rfl
@[simp] theorem setDT_run (s : State) (v : Nat) : (s.setDT v).run = s.run := rfl
@[simp] theorem setDT_slot (s : State) (v : Nat) : (s.setDT v).slot = s.slot := rfl
@[simp] theorem setDT_phase (s : State) (v : Nat) : (s.setDT v).phase = s.phase := rfl
@[simp] theorem setDT_trace (s : State) (v : Nat) : (s.setDT v).trace = s.trace := rfl
@[simp] theorem setDT_params (s : State) (v : Nat) : (s.setDT v).params = s.params := rfl
@[simp] theorem setDT_ports (s : State) (v : Nat) : (s.setDT v).ports = s.ports := rfl
@[simp] theorem setDT_env (s : State) (v : Nat) : (s.setDT v).env = s.env := rfl

/-! ### setST -/

@[simp] theorem setST_mem (s : State) (v : Nat) : (s.setST v).mem = s.mem := rfl
@[simp] theorem setST_V (s : State) (v : Nat) : (s.setST v).V = s.V := rfl
@[simp] theorem setST_I (s : State) (v : Nat) : (s.setST v).I = s.I := rfl
@[simp] theorem setST_pc (s : State) (v : Nat) : (s.setST v).pc = s.pc := rfl
@[simp] theorem setST_SP (s : State) (v : Nat) : (s.setST v).SP = s.SP := rfl
@[simp] theorem setST_DT (s : State) (v : Nat) : (s.setST v).DT = s.DT := rfl
@[simp] theorem setST_ST (s : State) (v : Nat) : (s.setST v).ST = narrow s.params.timerWidth v := rfl
@[simp] theorem setST_keys (s : State) (v : Nat) : (s.setST v).keys = s.keys := rfl
@[simp] theorem setST_fb (s : State) (v : Nat) : (s.setST v).fb = s.fb := rfl
@[simp] theorem setST_dirty (s : State) (v : Nat) : (s.setST v).dirty = s.dirty := rfl
@[simp] theorem setST_len (s : State) (v : Nat) : (s.setST v).len = s.len := rfl
@[simp] theorem setST_run (s : State) (v : Nat) : (s.setST v).run = s.run := rfl
@[simp] theorem setST_slot (s : State) (v : Nat) : (s.setST v).slot = s.slot := rfl
@[simp] theorem setST_phase (s : State) (v : Nat) : (s.setST v).phase = s.phase := rfl
@[simp] theorem setST_trace (s : State) (v : Nat) : (s.setST v).trace = s.trace := rfl
@[simp] theorem setST_params (s : State) (v : Nat) : (s.setST v).params = s.params := rfl
@[simp] theorem setST_ports (s : State) (v : Nat) : (s.setST v).ports = s.ports := rfl
@[simp] theorem setST_env (s : State) (v : Nat) : (s.setST v).env = s.env := rfl

/-! ### setRF -/

@[simp] theorem setRF_mem (s : State) (x : Reg) (r : Byte) (f : Bool) : (s.setRF x r f).mem = s.mem := by unfold State.setRF; split <;> rfl
@[simp] theorem setRF_I (s : State) (x : Reg) (r : Byte) (f : Bool) : (s.setRF x r f).I = s.I := by unfold State.setRF; split <;> rfl
@[simp] theorem setRF_pc (s : State) (x : Reg) (r : Byte) (f : Bool) : (s.setRF x r f).pc = s.pc := by unfold State.setRF; split <;> rfl
@[simp] theorem setRF_SP (s : State) (x : Reg) (r : Byte) (f : Bool) : (s.setRF x r f).SP = s.SP := by unfold State.setRF; split <;> rfl
@[simp] theorem setRF_DT (s : State) (x : Reg) (r : Byte) (f : Bool) : (s.setRF x r f).DT = s.DT := by unfold State.setRF; split <;> rfl
@[simp] theorem setRF_ST (s : State) (x : Reg) (r : Byte) (f : Bool) : (s.setRF x r f).ST = s.ST := by unfold State.setRF; split <;> rfl
@[simp] theorem setRF_keys (s : State) (x : Reg) (r : Byte) (f : Bool) : (s.setRF x r f).keys = s.keys := by unfold State.setRF; split <;> rfl
@[simp] theorem setRF_fb (s : State) (x : Reg) (r : Byte) (f : Bool) : (s.setRF x r f).fb = s.fb := by unfold State.setRF; split <;> rfl
@[simp] theorem setRF_dirty (s : State) (x : Reg) (r : Byte) (f : Bool) : (s.setRF x r f).dirty = s.dirty := by unfold State.setRF; split <;> rfl
@[simp] theorem setRF_len (s : State) (x : Reg) (r : Byte) (f : Bool) : (s.setRF x r f).len = s.len := by unfold State.setRF; split <;> rfl
@[simp] theorem setRF_run (s : State) (x : Reg) (r : Byte) (f : Bool) : (s.setRF x r f).run = s.run := by unfold State.setRF; split <;> rfl
@[simp] theorem setRF_slot (s : State) (x : Reg) (r : Byte) (f : Bool) : (s.setRF x r f).slot = s.slot := by unfold State.setRF; split <;> rfl
@[simp] theorem setRF_phase (s : State) (x : Reg) (r : Byte) (f : Bool) : (s.setRF x r f).phase = s.phase := by unfold State.setRF; split <;> rfl
@[simp] theorem setRF_trace (s : State) (x : Reg) (r : Byte) (f : Bool) : (s.setRF x r f).trace = s.trace := by unfold State.setRF; split <;> rfl
@[simp] theorem setRF_params (s : State) (x : Reg) (r : Byte) (f : Bool) : (s.setRF x r f).params = s.params := by unfold State.setRF; split <;> rfl
@[simp] theorem setRF_ports (s : State) (x : Reg) (r : Byte) (f : Bool) : (s.setRF x r f).ports = s.ports := by unfold State.setRF; split <;> rfl
@[simp] theorem setRF_env (s : State) (x : Reg) (r : Byte) (f : Bool) : (s.setRF x r f).env = s.env := by unfold State.setRF; split <;> rfl

/-! ### storePair -/

@[simp] theorem storePair_mem (s : State) (a : Nat) (v : Word) : (s.storePair a v).mem = Memory.writePair s.params s.mem a v := rfl
@[simp] theorem storePair_V (s : State) (a : Nat) (v : Word) : (s.storePair a v).V = s.V := rfl
@[simp] theorem storePair_I (s : State) (a : Nat) (v : Word) : (s.storePair a v).I = s.I := rfl
@[simp] theorem storePair_pc (s : State) (a : Nat) (v : Word) : (s.storePair a v).pc = s.pc := rfl
@[simp] theorem storePair_SP (s : State) (a : Nat) (v : Word) : (s.storePair a v).SP = s.SP := rfl
@[simp] theorem storePair_DT (s : State) (a : Nat) (v : Word) : (s.storePair a v).DT = s.DT := rfl
@[simp] theorem storePair_ST (s : State) (a : Nat) (v : Word) : (s.storePair a v).ST = s.ST := rfl
@[simp] theorem storePair_keys (s : State) (a : Nat) (v : Word) : (s.storePair a v).keys = s.keys := rfl
@[simp] theorem storePair_fb (s : State) (a : Nat) (v : Word) : (s.storePair a v).fb = s.fb := rfl
@[simp] theorem storePair_dirty (s : State) (a : Nat) (v : Word) : (s.storePair a v).dirty = s.dirty := rfl
@[simp] theorem storePair_len (s : State) (a : Nat) (v : Word) : (s.storePair a v).len = s.len := rfl
@[simp] theorem storePair_run (s : State) (a : Nat) (v : Word) : (s.storePair a v).run = s.run := rfl
@[simp] theorem storePair_slot (s : State) (a : Nat) (v : Word) : (s.storePair a v).slot = s.slot := rfl
@[simp] theorem storePair_phase (s : State) (a : Nat) (v : Word) : (s.storePair a v).phase = s.phase := rfl
@[simp] theorem storePair_trace (s : State) (a : Nat) (v : Word) : (s.storePair a v).trace = s.trace := rfl
@[simp] theorem storePair_params (s : State) (a : Nat) (v : Word) : (s.storePair a v).params = s.params := rfl
@[simp] theorem storePair_ports (s : State) (a : Nat) (v : Word) : (s.storePair a v).ports = s.ports := rfl
@[simp] theorem storePair_env (s : State) (a : Nat) (v : Word) : (s.storePair a v).env = s.env := rfl

/-! ### storeBlock -/

@[simp] theorem storeBlock_mem (s : State) (base : Nat) (vs : List Byte) : (s.storeBlock base vs).mem = Memory.writeBlock s.params s.mem base vs := rfl
@[simp] theorem storeBlock_V (s : State) (base : Nat) (vs : List Byte) : (s.storeBlock base vs).V = s.V := rfl
@[simp] theorem storeBlock_I (s : State) (base : Nat) (vs : List Byte) : (s.storeBlock base vs).I = s.I := rfl
@[simp] theorem storeBlock_pc (s : State) (base : Nat) (vs : List Byte) : (s.storeBlock base vs).pc = s.pc := rfl
@[simp] theorem storeBlock_SP (s : State) (base : Nat) (vs : List Byte) : (s.storeBlock base vs).SP = s.SP := rfl
@[simp] theorem storeBlock_DT (s : State) (base : Nat) (vs : List Byte) : (s.storeBlock base vs).DT = s.DT := rfl
@[simp] theorem storeBlock_ST (s : State) (base : Nat) (vs : List Byte) : (s.storeBlock base vs).ST = s.ST := rfl
@[simp] theorem storeBlock_keys (s : State) (base : Nat) (vs : List Byte) : (s.storeBlock base vs).keys = s.keys := rfl
@[simp] theorem storeBlock_fb (s : State) (base : Nat) (vs : List Byte) : (s.storeBlock base vs).fb = s.fb := rfl
@[simp] theorem storeBlock_dirty (s : State) (base : Nat) (vs : List Byte) : (s.storeBlock base vs).dirty = s.dirty := rfl
@[simp] theorem storeBlock_len (s : State) (base : Nat) (vs : List Byte) : (s.storeBlock base vs).len = s.len := rfl
@[simp] theorem storeBlock_run (s : State) (base : Nat) (vs : List Byte) : (s.storeBlock base vs).run = s.run := rfl
@[simp] theorem storeBlock_slot (s : State) (base : Nat) (vs : List Byte) : (s.storeBlock base vs).slot = s.slot := rfl
@[simp] theorem storeBlock_phase (s : State) (base : Nat) (vs : List Byte) : (s.storeBlock base vs).phase = s.phase := rfl
@[simp] theorem storeBlock_trace (s : State) (base : Nat) (vs : List Byte) : (s.storeBlock base vs).trace = s.trace := rfl
@[simp] theorem storeBlock_params (s : State) (base : Nat) (vs : List Byte) : (s.storeBlock base vs).params = s.params := rfl
@[simp] theorem storeBlock_ports (s : State) (base : Nat) (vs : List Byte) : (s.storeBlock base vs).ports = s.ports := rfl
@[simp] theorem storeBlock_env (s : State) (base : Nat) (vs : List Byte) : (s.storeBlock base vs).env = s.env := rfl

/-! ### loadRegsFrom -/

@[simp] theorem loadRegsFrom_mem (s : State) (base count : Nat) : (s.loadRegsFrom base count).mem = s.mem := rfl
@[simp] theorem loadRegsFrom_I (s : State) (base count : Nat) : (s.loadRegsFrom base count).I = s.I := rfl
@[simp] theorem loadRegsFrom_pc (s : State) (base count : Nat) : (s.loadRegsFrom base count).pc = s.pc := rfl
@[simp] theorem loadRegsFrom_SP (s : State) (base count : Nat) : (s.loadRegsFrom base count).SP = s.SP := rfl
@[simp] theorem loadRegsFrom_DT (s : State) (base count : Nat) : (s.loadRegsFrom base count).DT = s.DT := rfl
@[simp] theorem loadRegsFrom_ST (s : State) (base count : Nat) : (s.loadRegsFrom base count).ST = s.ST := rfl
@[simp] theorem loadRegsFrom_keys (s : State) (base count : Nat) : (s.loadRegsFrom base count).keys = s.keys := rfl
@[simp] theorem loadRegsFrom_fb (s : State) (base count : Nat) : (s.loadRegsFrom base count).fb = s.fb := rfl
@[simp] theorem loadRegsFrom_dirty (s : State) (base count : Nat) : (s.loadRegsFrom base count).dirty = s.dirty := rfl
@[simp] theorem loadRegsFrom_len (s : State) (base count : Nat) : (s.loadRegsFrom base count).len = s.len := rfl
@[simp] theorem loadRegsFrom_run (s : State) (base count : Nat) : (s.loadRegsFrom base count).run = s.run := rfl
@[simp] theorem loadRegsFrom_slot (s : State) (base count : Nat) : (s.loadRegsFrom base count).slot = s.slot := rfl
@[simp] theorem loadRegsFrom_phase (s : State) (base count : Nat) : (s.loadRegsFrom base count).phase = s.phase := rfl
@[simp] theorem loadRegsFrom_trace (s : State) (base count : Nat) : (s.loadRegsFrom base count).trace = s.trace := rfl
@[simp] theorem loadRegsFrom_params (s : State) (base count : Nat) : (s.loadRegsFrom base count).params = s.params := rfl
@[simp] theorem loadRegsFrom_ports (s : State) (base count : Nat) : (s.loadRegsFrom base count).ports = s.ports := rfl
@[simp] theorem loadRegsFrom_env (s : State) (base count : Nat) : (s.loadRegsFrom base count).env = s.env := rfl

/-! ### enterFault -/

@[simp] theorem enterFault_mem (s : State) (r : FaultRecord) : (s.enterFault r).mem = s.mem := rfl
@[simp] theorem enterFault_V (s : State) (r : FaultRecord) : (s.enterFault r).V = s.V := rfl
@[simp] theorem enterFault_I (s : State) (r : FaultRecord) : (s.enterFault r).I = s.I := rfl
@[simp] theorem enterFault_pc (s : State) (r : FaultRecord) : (s.enterFault r).pc = s.pc := rfl
@[simp] theorem enterFault_SP (s : State) (r : FaultRecord) : (s.enterFault r).SP = s.SP := rfl
@[simp] theorem enterFault_DT (s : State) (r : FaultRecord) : (s.enterFault r).DT = s.DT := rfl
@[simp] theorem enterFault_ST (s : State) (r : FaultRecord) : (s.enterFault r).ST = s.ST := rfl
@[simp] theorem enterFault_keys (s : State) (r : FaultRecord) : (s.enterFault r).keys = s.keys := rfl
@[simp] theorem enterFault_fb (s : State) (r : FaultRecord) : (s.enterFault r).fb = s.fb := rfl
@[simp] theorem enterFault_dirty (s : State) (r : FaultRecord) : (s.enterFault r).dirty = s.dirty := rfl
@[simp] theorem enterFault_len (s : State) (r : FaultRecord) : (s.enterFault r).len = s.len := rfl
@[simp] theorem enterFault_run (s : State) (r : FaultRecord) : (s.enterFault r).run = .faulted r := rfl
@[simp] theorem enterFault_slot (s : State) (r : FaultRecord) : (s.enterFault r).slot = s.slot := rfl
@[simp] theorem enterFault_phase (s : State) (r : FaultRecord) : (s.enterFault r).phase = s.phase := rfl
@[simp] theorem enterFault_trace (s : State) (r : FaultRecord) : (s.enterFault r).trace = s.trace := rfl
@[simp] theorem enterFault_params (s : State) (r : FaultRecord) : (s.enterFault r).params = s.params := rfl
@[simp] theorem enterFault_ports (s : State) (r : FaultRecord) : (s.enterFault r).ports = s.ports := rfl
@[simp] theorem enterFault_env (s : State) (r : FaultRecord) : (s.enterFault r).env = s.env := rfl

/-! ### emit -/

@[simp] theorem emit_mem (s : State) (e : Event) : (s.emit e).mem = s.mem := rfl
@[simp] theorem emit_V (s : State) (e : Event) : (s.emit e).V = s.V := rfl
@[simp] theorem emit_I (s : State) (e : Event) : (s.emit e).I = s.I := rfl
@[simp] theorem emit_pc (s : State) (e : Event) : (s.emit e).pc = s.pc := rfl
@[simp] theorem emit_SP (s : State) (e : Event) : (s.emit e).SP = s.SP := rfl
@[simp] theorem emit_DT (s : State) (e : Event) : (s.emit e).DT = s.DT := rfl
@[simp] theorem emit_ST (s : State) (e : Event) : (s.emit e).ST = s.ST := rfl
@[simp] theorem emit_keys (s : State) (e : Event) : (s.emit e).keys = s.keys := rfl
@[simp] theorem emit_fb (s : State) (e : Event) : (s.emit e).fb = s.fb := rfl
@[simp] theorem emit_dirty (s : State) (e : Event) : (s.emit e).dirty = s.dirty := rfl
@[simp] theorem emit_len (s : State) (e : Event) : (s.emit e).len = s.len := rfl
@[simp] theorem emit_run (s : State) (e : Event) : (s.emit e).run = s.run := rfl
@[simp] theorem emit_slot (s : State) (e : Event) : (s.emit e).slot = s.slot := rfl
@[simp] theorem emit_phase (s : State) (e : Event) : (s.emit e).phase = s.phase := rfl
@[simp] theorem emit_trace (s : State) (e : Event) : (s.emit e).trace = s.trace ++ [e] := rfl
@[simp] theorem emit_params (s : State) (e : Event) : (s.emit e).params = s.params := rfl
@[simp] theorem emit_ports (s : State) (e : Event) : (s.emit e).ports = s.ports.offer s.params e := rfl
@[simp] theorem emit_env (s : State) (e : Event) : (s.emit e).env = s.env := rfl

/-! ### afterDraw -/

@[simp] theorem afterDraw_mem (s : State) : (s.afterDraw).mem = s.mem := rfl
@[simp] theorem afterDraw_V (s : State) : (s.afterDraw).V = s.V := rfl
@[simp] theorem afterDraw_I (s : State) : (s.afterDraw).I = s.I := rfl
@[simp] theorem afterDraw_pc (s : State) : (s.afterDraw).pc = s.pc := rfl
@[simp] theorem afterDraw_SP (s : State) : (s.afterDraw).SP = s.SP := rfl
@[simp] theorem afterDraw_DT (s : State) : (s.afterDraw).DT = s.DT := rfl
@[simp] theorem afterDraw_ST (s : State) : (s.afterDraw).ST = s.ST := rfl
@[simp] theorem afterDraw_keys (s : State) : (s.afterDraw).keys = s.keys := rfl
@[simp] theorem afterDraw_fb (s : State) : (s.afterDraw).fb = s.fb := rfl
@[simp] theorem afterDraw_dirty (s : State) : (s.afterDraw).dirty = s.dirty := rfl
@[simp] theorem afterDraw_len (s : State) : (s.afterDraw).len = s.len := rfl
@[simp] theorem afterDraw_run (s : State) : (s.afterDraw).run = s.run := rfl
@[simp] theorem afterDraw_slot (s : State) : (s.afterDraw).slot = s.slot := rfl
@[simp] theorem afterDraw_phase (s : State) : (s.afterDraw).phase = s.phase := rfl
@[simp] theorem afterDraw_trace (s : State) : (s.afterDraw).trace = s.trace := rfl
@[simp] theorem afterDraw_params (s : State) : (s.afterDraw).params = s.params := rfl
@[simp] theorem afterDraw_ports (s : State) : (s.afterDraw).ports = s.ports := rfl

/-! ### envTurn -/

@[simp] theorem envTurn_mem (s : State) : (s.envTurn).mem = s.mem := rfl
@[simp] theorem envTurn_V (s : State) : (s.envTurn).V = s.V := rfl
@[simp] theorem envTurn_I (s : State) : (s.envTurn).I = s.I := rfl
@[simp] theorem envTurn_pc (s : State) : (s.envTurn).pc = s.pc := rfl
@[simp] theorem envTurn_SP (s : State) : (s.envTurn).SP = s.SP := rfl
@[simp] theorem envTurn_DT (s : State) : (s.envTurn).DT = s.DT := rfl
@[simp] theorem envTurn_ST (s : State) : (s.envTurn).ST = s.ST := rfl
@[simp] theorem envTurn_keys (s : State) : (s.envTurn).keys = s.keys := rfl
@[simp] theorem envTurn_fb (s : State) : (s.envTurn).fb = s.fb := rfl
@[simp] theorem envTurn_dirty (s : State) : (s.envTurn).dirty = s.dirty := rfl
@[simp] theorem envTurn_len (s : State) : (s.envTurn).len = s.len := rfl
@[simp] theorem envTurn_run (s : State) : (s.envTurn).run = s.run := rfl
@[simp] theorem envTurn_slot (s : State) : (s.envTurn).slot = s.slot := rfl
@[simp] theorem envTurn_phase (s : State) : (s.envTurn).phase = s.phase := rfl
@[simp] theorem envTurn_trace (s : State) : (s.envTurn).trace = s.trace := rfl
@[simp] theorem envTurn_params (s : State) : (s.envTurn).params = s.params := rfl

/-! ### flush -/

@[simp] theorem flush_mem (s : State) : (s.flush).mem = s.mem := by unfold State.flush; split <;> rfl
@[simp] theorem flush_V (s : State) : (s.flush).V = s.V := by unfold State.flush; split <;> rfl
@[simp] theorem flush_I (s : State) : (s.flush).I = s.I := by unfold State.flush; split <;> rfl
@[simp] theorem flush_pc (s : State) : (s.flush).pc = s.pc := by unfold State.flush; split <;> rfl
@[simp] theorem flush_SP (s : State) : (s.flush).SP = s.SP := by unfold State.flush; split <;> rfl
@[simp] theorem flush_DT (s : State) : (s.flush).DT = s.DT := by unfold State.flush; split <;> rfl
@[simp] theorem flush_ST (s : State) : (s.flush).ST = s.ST := by unfold State.flush; split <;> rfl
@[simp] theorem flush_keys (s : State) : (s.flush).keys = s.keys := by unfold State.flush; split <;> rfl
@[simp] theorem flush_fb (s : State) : (s.flush).fb = s.fb := by unfold State.flush; split <;> rfl
@[simp] theorem flush_dirty (s : State) : (s.flush).dirty = false := by
  unfold State.flush
  split <;> simp_all
@[simp] theorem flush_len (s : State) : (s.flush).len = s.len := by unfold State.flush; split <;> rfl
@[simp] theorem flush_run (s : State) : (s.flush).run = s.run := by unfold State.flush; split <;> rfl
@[simp] theorem flush_slot (s : State) : (s.flush).slot = s.slot := by unfold State.flush; split <;> rfl
@[simp] theorem flush_phase (s : State) : (s.flush).phase = s.phase := by unfold State.flush; split <;> rfl
@[simp] theorem flush_params (s : State) : (s.flush).params = s.params := by unfold State.flush; split <;> rfl
@[simp] theorem flush_env (s : State) : (s.flush).env = s.env := by unfold State.flush; split <;> rfl

end Sys2Proof.Machine
end

