-- ==== Sys2Proof/Laws/Cycle.lean ====
section
/-!
SUPPORT. What each update of the meanings and the sequencer (Control, Display, Cycle) does to each field of State.
-/

namespace Sys2Proof.Machine

/-! ### skipIf -/

@[simp] theorem skipIf_mem (s : State) (c : Bool) : (s.skipIf c).mem = s.mem := by unfold State.skipIf; split <;> rfl
@[simp] theorem skipIf_V (s : State) (c : Bool) : (s.skipIf c).V = s.V := by unfold State.skipIf; split <;> rfl
@[simp] theorem skipIf_I (s : State) (c : Bool) : (s.skipIf c).I = s.I := by unfold State.skipIf; split <;> rfl
@[simp] theorem skipIf_pc (s : State) (c : Bool) : (s.skipIf c).pc = if c then narrow s.params.pcWidth (s.pc + 2) else s.pc := by unfold State.skipIf; split <;> rfl
@[simp] theorem skipIf_SP (s : State) (c : Bool) : (s.skipIf c).SP = s.SP := by unfold State.skipIf; split <;> rfl
@[simp] theorem skipIf_DT (s : State) (c : Bool) : (s.skipIf c).DT = s.DT := by unfold State.skipIf; split <;> rfl
@[simp] theorem skipIf_ST (s : State) (c : Bool) : (s.skipIf c).ST = s.ST := by unfold State.skipIf; split <;> rfl
@[simp] theorem skipIf_keys (s : State) (c : Bool) : (s.skipIf c).keys = s.keys := by unfold State.skipIf; split <;> rfl
@[simp] theorem skipIf_fb (s : State) (c : Bool) : (s.skipIf c).fb = s.fb := by unfold State.skipIf; split <;> rfl
@[simp] theorem skipIf_dirty (s : State) (c : Bool) : (s.skipIf c).dirty = s.dirty := by unfold State.skipIf; split <;> rfl
@[simp] theorem skipIf_len (s : State) (c : Bool) : (s.skipIf c).len = s.len := by unfold State.skipIf; split <;> rfl
@[simp] theorem skipIf_run (s : State) (c : Bool) : (s.skipIf c).run = s.run := by unfold State.skipIf; split <;> rfl
@[simp] theorem skipIf_slot (s : State) (c : Bool) : (s.skipIf c).slot = s.slot := by unfold State.skipIf; split <;> rfl
@[simp] theorem skipIf_phase (s : State) (c : Bool) : (s.skipIf c).phase = s.phase := by unfold State.skipIf; split <;> rfl
@[simp] theorem skipIf_trace (s : State) (c : Bool) : (s.skipIf c).trace = s.trace := by unfold State.skipIf; split <;> rfl
@[simp] theorem skipIf_params (s : State) (c : Bool) : (s.skipIf c).params = s.params := by unfold State.skipIf; split <;> rfl
@[simp] theorem skipIf_ports (s : State) (c : Bool) : (s.skipIf c).ports = s.ports := by unfold State.skipIf; split <;> rfl
@[simp] theorem skipIf_env (s : State) (c : Bool) : (s.skipIf c).env = s.env := by unfold State.skipIf; split <;> rfl

/-! ### putCanvas -/

@[simp] theorem putCanvas_mem (s : State) (k : Canvas) : (s.putCanvas k).mem = s.mem := rfl
@[simp] theorem putCanvas_I (s : State) (k : Canvas) : (s.putCanvas k).I = s.I := rfl
@[simp] theorem putCanvas_pc (s : State) (k : Canvas) : (s.putCanvas k).pc = s.pc := rfl
@[simp] theorem putCanvas_SP (s : State) (k : Canvas) : (s.putCanvas k).SP = s.SP := rfl
@[simp] theorem putCanvas_DT (s : State) (k : Canvas) : (s.putCanvas k).DT = s.DT := rfl
@[simp] theorem putCanvas_ST (s : State) (k : Canvas) : (s.putCanvas k).ST = s.ST := rfl
@[simp] theorem putCanvas_keys (s : State) (k : Canvas) : (s.putCanvas k).keys = s.keys := rfl
@[simp] theorem putCanvas_fb (s : State) (k : Canvas) : (s.putCanvas k).fb = k.fb := rfl
@[simp] theorem putCanvas_dirty (s : State) (k : Canvas) : (s.putCanvas k).dirty = k.dirty := rfl
@[simp] theorem putCanvas_len (s : State) (k : Canvas) : (s.putCanvas k).len = s.len := rfl
@[simp] theorem putCanvas_run (s : State) (k : Canvas) : (s.putCanvas k).run = s.run := rfl
@[simp] theorem putCanvas_slot (s : State) (k : Canvas) : (s.putCanvas k).slot = s.slot := rfl
@[simp] theorem putCanvas_phase (s : State) (k : Canvas) : (s.putCanvas k).phase = s.phase := rfl
@[simp] theorem putCanvas_trace (s : State) (k : Canvas) : (s.putCanvas k).trace = s.trace := rfl
@[simp] theorem putCanvas_params (s : State) (k : Canvas) : (s.putCanvas k).params = s.params := rfl
@[simp] theorem putCanvas_ports (s : State) (k : Canvas) : (s.putCanvas k).ports = s.ports := rfl
@[simp] theorem putCanvas_env (s : State) (k : Canvas) : (s.putCanvas k).env = s.env := rfl

/-! ### drain -/

@[simp] theorem drain_mem (s : State) : (s.drain).mem = s.mem := rfl
@[simp] theorem drain_V (s : State) : (s.drain).V = s.V := rfl
@[simp] theorem drain_I (s : State) : (s.drain).I = s.I := rfl
@[simp] theorem drain_pc (s : State) : (s.drain).pc = s.pc := rfl
@[simp] theorem drain_SP (s : State) : (s.drain).SP = s.SP := rfl
@[simp] theorem drain_DT (s : State) : (s.drain).DT = s.DT := rfl
@[simp] theorem drain_ST (s : State) : (s.drain).ST = s.ST := rfl
@[simp] theorem drain_keys (s : State) : (s.drain).keys = s.ports.pendingKeys.getD s.keys := rfl
@[simp] theorem drain_fb (s : State) : (s.drain).fb = s.fb := rfl
@[simp] theorem drain_dirty (s : State) : (s.drain).dirty = s.dirty := rfl
@[simp] theorem drain_len (s : State) : (s.drain).len = s.len := rfl
@[simp] theorem drain_run (s : State) : (s.drain).run = s.run := rfl
@[simp] theorem drain_slot (s : State) : (s.drain).slot = s.slot := rfl
@[simp] theorem drain_phase (s : State) : (s.drain).phase = s.phase := rfl
@[simp] theorem drain_trace (s : State) : (s.drain).trace = s.trace := rfl
@[simp] theorem drain_params (s : State) : (s.drain).params = s.params := rfl
@[simp] theorem drain_env (s : State) : (s.drain).env = s.env := rfl

/-! ### slotEntry -/

@[simp] theorem slotEntry_mem (s : State) : (s.slotEntry).mem = s.mem := rfl
@[simp] theorem slotEntry_V (s : State) : (s.slotEntry).V = s.V := rfl
@[simp] theorem slotEntry_I (s : State) : (s.slotEntry).I = s.I := rfl
@[simp] theorem slotEntry_pc (s : State) : (s.slotEntry).pc = narrow s.params.pcWidth (s.pc + 2) := rfl
@[simp] theorem slotEntry_SP (s : State) : (s.slotEntry).SP = s.SP := rfl
@[simp] theorem slotEntry_DT (s : State) : (s.slotEntry).DT = s.DT := rfl
@[simp] theorem slotEntry_ST (s : State) : (s.slotEntry).ST = s.ST := rfl
@[simp] theorem slotEntry_keys (s : State) : (s.slotEntry).keys = s.ports.pendingKeys.getD s.keys := rfl
@[simp] theorem slotEntry_fb (s : State) : (s.slotEntry).fb = s.fb := rfl
@[simp] theorem slotEntry_dirty (s : State) : (s.slotEntry).dirty = s.dirty := rfl
@[simp] theorem slotEntry_len (s : State) : (s.slotEntry).len = s.len := rfl
@[simp] theorem slotEntry_run (s : State) : (s.slotEntry).run = s.run := rfl
@[simp] theorem slotEntry_slot (s : State) : (s.slotEntry).slot = s.slot + 1 := rfl
@[simp] theorem slotEntry_phase (s : State) : (s.slotEntry).phase = s.phase := rfl
@[simp] theorem slotEntry_trace (s : State) : (s.slotEntry).trace = s.trace := rfl
@[simp] theorem slotEntry_params (s : State) : (s.slotEntry).params = s.params := rfl
@[simp] theorem slotEntry_env (s : State) : (s.slotEntry).env = s.env := rfl

/-! ### fetchFault -/

@[simp] theorem fetchFault_mem (s : State) (a : Nat) : (s.fetchFault a).mem = s.mem := rfl
@[simp] theorem fetchFault_V (s : State) (a : Nat) : (s.fetchFault a).V = s.V := rfl
@[simp] theorem fetchFault_I (s : State) (a : Nat) : (s.fetchFault a).I = s.I := rfl
@[simp] theorem fetchFault_pc (s : State) (a : Nat) : (s.fetchFault a).pc = s.pc := rfl
@[simp] theorem fetchFault_SP (s : State) (a : Nat) : (s.fetchFault a).SP = s.SP := rfl
@[simp] theorem fetchFault_DT (s : State) (a : Nat) : (s.fetchFault a).DT = s.DT := rfl
@[simp] theorem fetchFault_ST (s : State) (a : Nat) : (s.fetchFault a).ST = s.ST := rfl
@[simp] theorem fetchFault_keys (s : State) (a : Nat) : (s.fetchFault a).keys = s.keys := rfl
@[simp] theorem fetchFault_fb (s : State) (a : Nat) : (s.fetchFault a).fb = s.fb := rfl
@[simp] theorem fetchFault_dirty (s : State) (a : Nat) : (s.fetchFault a).dirty = s.dirty := rfl
@[simp] theorem fetchFault_len (s : State) (a : Nat) : (s.fetchFault a).len = s.len := rfl
@[simp] theorem fetchFault_slot (s : State) (a : Nat) : (s.fetchFault a).slot = s.slot + 1 := rfl
@[simp] theorem fetchFault_phase (s : State) (a : Nat) : (s.fetchFault a).phase = s.phase := rfl
@[simp] theorem fetchFault_trace (s : State) (a : Nat) : (s.fetchFault a).trace = s.trace := rfl
@[simp] theorem fetchFault_params (s : State) (a : Nat) : (s.fetchFault a).params = s.params := rfl
@[simp] theorem fetchFault_ports (s : State) (a : Nat) : (s.fetchFault a).ports = s.ports := rfl
@[simp] theorem fetchFault_env (s : State) (a : Nat) : (s.fetchFault a).env = s.env := rfl

/-! ### frameStart -/

@[simp] theorem frameStart_mem (s : State) : (s.frameStart).mem = s.mem := by unfold State.frameStart; split <;> rfl
@[simp] theorem frameStart_V (s : State) : (s.frameStart).V = s.V := by unfold State.frameStart; split <;> rfl
@[simp] theorem frameStart_I (s : State) : (s.frameStart).I = s.I := by unfold State.frameStart; split <;> rfl
@[simp] theorem frameStart_pc (s : State) : (s.frameStart).pc = s.pc := by unfold State.frameStart; split <;> rfl
@[simp] theorem frameStart_SP (s : State) : (s.frameStart).SP = s.SP := by unfold State.frameStart; split <;> rfl
@[simp] theorem frameStart_DT (s : State) : (s.frameStart).DT = s.DT := by unfold State.frameStart; split <;> rfl
@[simp] theorem frameStart_ST (s : State) : (s.frameStart).ST = s.ST := by unfold State.frameStart; split <;> rfl
@[simp] theorem frameStart_keys (s : State) : (s.frameStart).keys = s.keys := by unfold State.frameStart; split <;> rfl
@[simp] theorem frameStart_fb (s : State) : (s.frameStart).fb = s.fb := by unfold State.frameStart; split <;> rfl
@[simp] theorem frameStart_dirty (s : State) : (s.frameStart).dirty = s.dirty := by unfold State.frameStart; split <;> rfl
@[simp] theorem frameStart_len (s : State) : (s.frameStart).len = s.len := by unfold State.frameStart; split <;> rfl
@[simp] theorem frameStart_trace (s : State) : (s.frameStart).trace = s.trace := by unfold State.frameStart; split <;> rfl
@[simp] theorem frameStart_params (s : State) : (s.frameStart).params = s.params := by unfold State.frameStart; split <;> rfl
@[simp] theorem frameStart_ports (s : State) : (s.frameStart).ports = s.ports := by unfold State.frameStart; split <;> rfl
@[simp] theorem frameStart_env (s : State) : (s.frameStart).env = s.env := by unfold State.frameStart; split <;> rfl

/-! ### tickDT -/

@[simp] theorem tickDT_mem (s : State) : (s.tickDT).mem = s.mem := by unfold State.tickDT; split <;> rfl
@[simp] theorem tickDT_V (s : State) : (s.tickDT).V = s.V := by unfold State.tickDT; split <;> rfl
@[simp] theorem tickDT_I (s : State) : (s.tickDT).I = s.I := by unfold State.tickDT; split <;> rfl
@[simp] theorem tickDT_pc (s : State) : (s.tickDT).pc = s.pc := by unfold State.tickDT; split <;> rfl
@[simp] theorem tickDT_SP (s : State) : (s.tickDT).SP = s.SP := by unfold State.tickDT; split <;> rfl
@[simp] theorem tickDT_DT (s : State) : (s.tickDT).DT = s.DT - 1 := by unfold State.tickDT; split <;> simp_all
@[simp] theorem tickDT_ST (s : State) : (s.tickDT).ST = s.ST := by unfold State.tickDT; split <;> rfl
@[simp] theorem tickDT_keys (s : State) : (s.tickDT).keys = s.keys := by unfold State.tickDT; split <;> rfl
@[simp] theorem tickDT_fb (s : State) : (s.tickDT).fb = s.fb := by unfold State.tickDT; split <;> rfl
@[simp] theorem tickDT_dirty (s : State) : (s.tickDT).dirty = s.dirty := by unfold State.tickDT; split <;> rfl
@[simp] theorem tickDT_len (s : State) : (s.tickDT).len = s.len := by unfold State.tickDT; split <;> rfl
@[simp] theorem tickDT_run (s : State) : (s.tickDT).run = s.run := by unfold State.tickDT; split <;> rfl
@[simp] theorem tickDT_slot (s : State) : (s.tickDT).slot = s.slot := by unfold State.tickDT; split <;> rfl
@[simp] theorem tickDT_phase (s : State) : (s.tickDT).phase = s.phase := by unfold State.tickDT; split <;> rfl
@[simp] theorem tickDT_trace (s : State) : (s.tickDT).trace = s.trace := by unfold State.tickDT; split <;> rfl
@[simp] theorem tickDT_params (s : State) : (s.tickDT).params = s.params := by unfold State.tickDT; split <;> rfl
@[simp] theorem tickDT_ports (s : State) : (s.tickDT).ports = s.ports := by unfold State.tickDT; split <;> rfl
@[simp] theorem tickDT_env (s : State) : (s.tickDT).env = s.env := by unfold State.tickDT; split <;> rfl

/-! ### tickST -/

@[simp] theorem tickST_mem (s : State) : (s.tickST).mem = s.mem := by unfold State.tickST; split <;> rfl
@[simp] theorem tickST_V (s : State) : (s.tickST).V = s.V := by unfold State.tickST; split <;> rfl
@[simp] theorem tickST_I (s : State) : (s.tickST).I = s.I := by unfold State.tickST; split <;> rfl
@[simp] theorem tickST_pc (s : State) : (s.tickST).pc = s.pc := by unfold State.tickST; split <;> rfl
@[simp] theorem tickST_SP (s : State) : (s.tickST).SP = s.SP := by unfold State.tickST; split <;> rfl
@[simp] theorem tickST_DT (s : State) : (s.tickST).DT = s.DT := by unfold State.tickST; split <;> rfl
@[simp] theorem tickST_ST (s : State) : (s.tickST).ST = s.ST - 1 := by unfold State.tickST; split <;> simp_all
@[simp] theorem tickST_keys (s : State) : (s.tickST).keys = s.keys := by unfold State.tickST; split <;> rfl
@[simp] theorem tickST_fb (s : State) : (s.tickST).fb = s.fb := by unfold State.tickST; split <;> rfl
@[simp] theorem tickST_dirty (s : State) : (s.tickST).dirty = s.dirty := by unfold State.tickST; split <;> rfl
@[simp] theorem tickST_len (s : State) : (s.tickST).len = s.len := by unfold State.tickST; split <;> rfl
@[simp] theorem tickST_run (s : State) : (s.tickST).run = s.run := by unfold State.tickST; split <;> rfl
@[simp] theorem tickST_slot (s : State) : (s.tickST).slot = s.slot := by unfold State.tickST; split <;> rfl
@[simp] theorem tickST_phase (s : State) : (s.tickST).phase = s.phase := by unfold State.tickST; split <;> rfl
@[simp] theorem tickST_params (s : State) : (s.tickST).params = s.params := by unfold State.tickST; split <;> rfl
@[simp] theorem tickST_env (s : State) : (s.tickST).env = s.env := by unfold State.tickST; split <;> rfl

/-! ### frameFinish -/

@[simp] theorem frameFinish_mem (s : State) : (s.frameFinish).mem = s.mem := by simp [State.frameFinish]
@[simp] theorem frameFinish_V (s : State) : (s.frameFinish).V = s.V := by simp [State.frameFinish]
@[simp] theorem frameFinish_I (s : State) : (s.frameFinish).I = s.I := by simp [State.frameFinish]
@[simp] theorem frameFinish_pc (s : State) : (s.frameFinish).pc = s.pc := by simp [State.frameFinish]
@[simp] theorem frameFinish_SP (s : State) : (s.frameFinish).SP = s.SP := by simp [State.frameFinish]
@[simp] theorem frameFinish_DT (s : State) : (s.frameFinish).DT = s.DT - 1 := by simp [State.frameFinish]
@[simp] theorem frameFinish_ST (s : State) : (s.frameFinish).ST = s.ST - 1 := by simp [State.frameFinish]
@[simp] theorem frameFinish_keys (s : State) : (s.frameFinish).keys = s.keys := by simp [State.frameFinish]
@[simp] theorem frameFinish_fb (s : State) : (s.frameFinish).fb = s.fb := by simp [State.frameFinish]
@[simp] theorem frameFinish_dirty (s : State) : (s.frameFinish).dirty = false := by simp [State.frameFinish]
@[simp] theorem frameFinish_len (s : State) : (s.frameFinish).len = s.len := by simp [State.frameFinish]
@[simp] theorem frameFinish_run (s : State) : (s.frameFinish).run = s.run := by simp [State.frameFinish]
@[simp] theorem frameFinish_slot (s : State) : (s.frameFinish).slot = s.slot := by simp [State.frameFinish]
@[simp] theorem frameFinish_phase (s : State) : (s.frameFinish).phase = .frameHead := by simp [State.frameFinish]
@[simp] theorem frameFinish_params (s : State) : (s.frameFinish).params = s.params := by simp [State.frameFinish]
@[simp] theorem frameFinish_env (s : State) : (s.frameFinish).env = s.env := by simp [State.frameFinish]

/-! ### receiveKey -/

@[simp] theorem receiveKey_mem (s : State) (x : Reg) (k : Nat) : (s.receiveKey x k).mem = s.mem := rfl
@[simp] theorem receiveKey_I (s : State) (x : Reg) (k : Nat) : (s.receiveKey x k).I = s.I := rfl
@[simp] theorem receiveKey_pc (s : State) (x : Reg) (k : Nat) : (s.receiveKey x k).pc = s.pc := rfl
@[simp] theorem receiveKey_SP (s : State) (x : Reg) (k : Nat) : (s.receiveKey x k).SP = s.SP := rfl
@[simp] theorem receiveKey_DT (s : State) (x : Reg) (k : Nat) : (s.receiveKey x k).DT = 0 := rfl
@[simp] theorem receiveKey_ST (s : State) (x : Reg) (k : Nat) : (s.receiveKey x k).ST = 0 := rfl
@[simp] theorem receiveKey_keys (s : State) (x : Reg) (k : Nat) : (s.receiveKey x k).keys = s.keys := rfl
@[simp] theorem receiveKey_fb (s : State) (x : Reg) (k : Nat) : (s.receiveKey x k).fb = s.fb := rfl
@[simp] theorem receiveKey_dirty (s : State) (x : Reg) (k : Nat) : (s.receiveKey x k).dirty = s.dirty := rfl
@[simp] theorem receiveKey_len (s : State) (x : Reg) (k : Nat) : (s.receiveKey x k).len = s.len := rfl
@[simp] theorem receiveKey_run (s : State) (x : Reg) (k : Nat) : (s.receiveKey x k).run = .running := rfl
@[simp] theorem receiveKey_slot (s : State) (x : Reg) (k : Nat) : (s.receiveKey x k).slot = s.slot := rfl
@[simp] theorem receiveKey_phase (s : State) (x : Reg) (k : Nat) : (s.receiveKey x k).phase = s.phase := rfl
@[simp] theorem receiveKey_trace (s : State) (x : Reg) (k : Nat) : (s.receiveKey x k).trace = s.trace := rfl
@[simp] theorem receiveKey_params (s : State) (x : Reg) (k : Nat) : (s.receiveKey x k).params = s.params := rfl
@[simp] theorem receiveKey_env (s : State) (x : Reg) (k : Nat) : (s.receiveKey x k).env = s.env := rfl

/-! ### placeWord -/

@[simp] theorem placeWord_V (s : State) (w : Word) : (s.placeWord w).V = s.V := rfl
@[simp] theorem placeWord_I (s : State) (w : Word) : (s.placeWord w).I = s.I := rfl
@[simp] theorem placeWord_pc (s : State) (w : Word) : (s.placeWord w).pc = s.pc := rfl
@[simp] theorem placeWord_SP (s : State) (w : Word) : (s.placeWord w).SP = s.SP := rfl
@[simp] theorem placeWord_DT (s : State) (w : Word) : (s.placeWord w).DT = s.DT := rfl
@[simp] theorem placeWord_ST (s : State) (w : Word) : (s.placeWord w).ST = s.ST := rfl
@[simp] theorem placeWord_keys (s : State) (w : Word) : (s.placeWord w).keys = s.keys := rfl
@[simp] theorem placeWord_fb (s : State) (w : Word) : (s.placeWord w).fb = s.fb := rfl
@[simp] theorem placeWord_dirty (s : State) (w : Word) : (s.placeWord w).dirty = s.dirty := rfl
@[simp] theorem placeWord_run (s : State) (w : Word) : (s.placeWord w).run = .running := rfl
@[simp] theorem placeWord_slot (s : State) (w : Word) : (s.placeWord w).slot = 0 := rfl
@[simp] theorem placeWord_phase (s : State) (w : Word) : (s.placeWord w).phase = .inFrame := rfl
@[simp] theorem placeWord_trace (s : State) (w : Word) : (s.placeWord w).trace = s.trace := rfl
@[simp] theorem placeWord_params (s : State) (w : Word) : (s.placeWord w).params = s.params := rfl
@[simp] theorem placeWord_ports (s : State) (w : Word) : (s.placeWord w).ports = s.ports := rfl
@[simp] theorem placeWord_env (s : State) (w : Word) : (s.placeWord w).env = s.env := rfl

end Sys2Proof.Machine
end

