-- ==== Sys2Proof/Laws/Encode.lean ====
section
/-!
SUPPORT. Bits of packed words, their fields, and byte pairs (spec/30_encoding.md R72, spec/20_memory.md R54).
-/

namespace Sys2Proof

theorem getLsbD_joinBytes (hi lo : Byte) (i : Nat) :
    (joinBytes hi lo).getLsbD i = if i < 8 then lo.getLsbD i else hi.getLsbD (i - 8) :=
  BitVec.getLsbD_append

theorem getLsbD_packNNN (c : Nibble) (nnn : Addr12) (i : Nat) :
    (packNNN c nnn).getLsbD i = if i < 12 then nnn.getLsbD i else c.getLsbD (i - 12) :=
  BitVec.getLsbD_append

theorem getLsbD_packXKK (c x : Nibble) (kk : Byte) (i : Nat) :
    (packXKK c x kk).getLsbD i =
      if i < 8 then kk.getLsbD i else if i < 12 then x.getLsbD (i - 8) else c.getLsbD (i - 12) := by
  have h1 : (packXKK c x kk).getLsbD i = if i < 8 then kk.getLsbD i else (c ++ x).getLsbD (i - 8) :=
    BitVec.getLsbD_append
  have h2 : (c ++ x).getLsbD (i - 8) = if i - 8 < 4 then x.getLsbD (i - 8) else c.getLsbD (i - 8 - 4) :=
    BitVec.getLsbD_append
  rw [h1, h2]
  by_cases h : i < 8
  · simp [h]
  · simp only [h, if_false, show (i - 8 < 4) = (i < 12) by apply propext; omega, show i - 8 - 4 = i - 12 by omega]

theorem getLsbD_packXYN (c x y n : Nibble) (i : Nat) :
    (packXYN c x y n).getLsbD i =
      if i < 4 then n.getLsbD i else if i < 8 then y.getLsbD (i - 4)
      else if i < 12 then x.getLsbD (i - 8) else c.getLsbD (i - 12) := by
  have h1 : (packXYN c x y n).getLsbD i = if i < 4 then n.getLsbD i else (c ++ x ++ y).getLsbD (i - 4) :=
    BitVec.getLsbD_append
  have h2 : (c ++ x ++ y).getLsbD (i - 4) =
      if i - 4 < 4 then y.getLsbD (i - 4) else (c ++ x).getLsbD (i - 4 - 4) := BitVec.getLsbD_append
  have h3 : (c ++ x).getLsbD (i - 4 - 4) =
      if i - 4 - 4 < 4 then x.getLsbD (i - 4 - 4) else c.getLsbD (i - 4 - 4 - 4) := BitVec.getLsbD_append
  rw [h1, h2, h3]
  by_cases h : i < 4
  · simp [h]
  · by_cases h' : i < 8
    · simp [h, h', show i - 4 < 4 by omega]
    · simp only [h, h', if_false, show (i - 4 < 4) = False by simp; omega, show i - 4 - 4 = i - 8 by omega,
        show (i - 8 < 4) = (i < 12) by apply propext; omega, show i - 8 - 4 = i - 12 by omega]

@[simp] theorem fieldC_packNNN (c : Nibble) (nnn : Addr12) : fieldC (packNNN c nnn) = c := by
  apply BitVec.eq_of_getLsbD_eq
  intro i h
  simp [fieldC, getLsbD_packNNN, h]

@[simp] theorem fieldNNN_packNNN (c : Nibble) (nnn : Addr12) : fieldNNN (packNNN c nnn) = nnn := by
  apply BitVec.eq_of_getLsbD_eq
  intro i h
  simp [fieldNNN, getLsbD_packNNN, h]

@[simp] theorem fieldC_packXKK (c x : Nibble) (kk : Byte) : fieldC (packXKK c x kk) = c := by
  apply BitVec.eq_of_getLsbD_eq
  intro i h
  simp [fieldC, getLsbD_packXKK, h, show ¬ 12 + i < 8 by omega]

@[simp] theorem fieldX_packXKK (c x : Nibble) (kk : Byte) : fieldX (packXKK c x kk) = x := by
  apply BitVec.eq_of_getLsbD_eq
  intro i h
  simp [fieldX, getLsbD_packXKK, h, show 8 + i < 12 by omega]

@[simp] theorem fieldKK_packXKK (c x : Nibble) (kk : Byte) : fieldKK (packXKK c x kk) = kk := by
  apply BitVec.eq_of_getLsbD_eq
  intro i h
  simp [fieldKK, getLsbD_packXKK, h]

@[simp] theorem fieldC_packXYN (c x y n : Nibble) : fieldC (packXYN c x y n) = c := by
  apply BitVec.eq_of_getLsbD_eq
  intro i h
  simp [fieldC, getLsbD_packXYN, h, show ¬ 12 + i < 8 by omega, show ¬ 12 + i < 4 by omega]

@[simp] theorem fieldX_packXYN (c x y n : Nibble) : fieldX (packXYN c x y n) = x := by
  apply BitVec.eq_of_getLsbD_eq
  intro i h
  simp [fieldX, getLsbD_packXYN, h, show 8 + i < 12 by omega, show ¬ 8 + i < 4 by omega]

@[simp] theorem fieldY_packXYN (c x y n : Nibble) : fieldY (packXYN c x y n) = y := by
  apply BitVec.eq_of_getLsbD_eq
  intro i h
  simp [fieldY, getLsbD_packXYN, h, show 4 + i < 8 by omega]

@[simp] theorem fieldN_packXYN (c x y n : Nibble) : fieldN (packXYN c x y n) = n := by
  apply BitVec.eq_of_getLsbD_eq
  intro i h
  simp [fieldN, getLsbD_packXYN, h]

theorem packNNN_fields (w : Word) : packNNN (fieldC w) (fieldNNN w) = w := by
  apply BitVec.eq_of_getLsbD_eq
  intro i h
  rw [getLsbD_packNNN]
  by_cases h1 : i < 12
  · simp [fieldNNN, h1]
  · simp [fieldC, h1, show i - 12 < 4 by omega, show 12 + (i - 12) = i by omega]

theorem packXKK_fields (w : Word) : packXKK (fieldC w) (fieldX w) (fieldKK w) = w := by
  apply BitVec.eq_of_getLsbD_eq
  intro i h
  rw [getLsbD_packXKK]
  by_cases h1 : i < 8
  · simp [fieldKK, h1]
  · by_cases h2 : i < 12
    · simp [fieldX, h1, h2, show i - 8 < 4 by omega, show 8 + (i - 8) = i by omega]
    · simp [fieldC, h1, h2, show i - 12 < 4 by omega, show 12 + (i - 12) = i by omega]

theorem packXYN_fields (w : Word) : packXYN (fieldC w) (fieldX w) (fieldY w) (fieldN w) = w := by
  apply BitVec.eq_of_getLsbD_eq
  intro i h
  rw [getLsbD_packXYN]
  by_cases h0 : i < 4
  · simp [fieldN, h0]
  · by_cases h1 : i < 8
    · simp [fieldY, h0, h1, show i - 4 < 4 by omega, show 4 + (i - 4) = i by omega]
    · by_cases h2 : i < 12
      · simp [fieldX, h0, h1, h2, show i - 8 < 4 by omega, show 8 + (i - 8) = i by omega]
      · simp [fieldC, h0, h1, h2, show i - 12 < 4 by omega, show 12 + (i - 12) = i by omega]

@[simp] theorem highByte_joinBytes (hi lo : Byte) : highByte (joinBytes hi lo) = hi := by
  apply BitVec.eq_of_getLsbD_eq
  intro i h
  simp [highByte, getLsbD_joinBytes, h]

@[simp] theorem lowByte_joinBytes (hi lo : Byte) : lowByte (joinBytes hi lo) = lo := by
  apply BitVec.eq_of_getLsbD_eq
  intro i h
  simp [lowByte, getLsbD_joinBytes, h]

@[simp] theorem joinBytes_high_low (w : Word) : joinBytes (highByte w) (lowByte w) = w := by
  apply BitVec.eq_of_getLsbD_eq
  intro i h
  rw [getLsbD_joinBytes]
  by_cases h8 : i < 8
  · simp [lowByte, h8]
  · simp [highByte, h8, show i - 8 < 8 by omega, show 8 + (i - 8) = i by omega]

theorem joinBytes_toNat (hi lo : Byte) : (joinBytes hi lo).toNat = hi.toNat * 256 + lo.toNat := by
  have h : (joinBytes hi lo).toNat = hi.toNat <<< 8 ||| lo.toNat := BitVec.toNat_append hi lo
  rw [h, ← Nat.shiftLeft_add_eq_or_of_lt lo.isLt, Nat.shiftLeft_eq]

end Sys2Proof
end

