-- ==== Sys2Proof/Laws/Grid.lean ====
section
/-!
SUPPORT. Pixels: the shape of a grid and what keeps it, reading after writing, the blank grid, what one plotted bit can do
(spec/44_display_raster.md R201, R203).
-/

namespace Sys2Proof.Machine

theorem shaped_iff (p : Params) (g : Grid) :
    g.shaped p = true ↔ g.length = p.fbRows ∧ ∀ row ∈ g, row.length = p.fbCols := by
  simp [Grid.shaped]

/-- The row of a shaped grid has FB_W pixels. -/
theorem shaped_row {p : Params} {g : Grid} (h : g.shaped p = true) {r : Nat} (hr : r < p.fbRows) :
    (g.getD r []).length = p.fbCols := by
  obtain ⟨hl, hw⟩ := (shaped_iff p g).1 h
  have hr' : r < g.length := by omega
  simpa [List.getD, hr'] using hw _ (List.getElem_mem hr')

@[simp] theorem shaped_blank (p : Params) : (Grid.blank p).shaped p = true := by
  rw [shaped_iff]
  exact ⟨by simp [Grid.blank], fun row h => by simp [Grid.blank, List.mem_replicate] at h; simp [h]⟩

@[simp] theorem pixel_blank (p : Params) (r c : Nat) : Grid.pixel (Grid.blank p) r c = false := by
  unfold Grid.pixel Grid.blank
  simp only [List.getD_eq_getElem?_getD, List.getElem?_replicate]
  split
  · simp only [Option.getD_some, List.getElem?_replicate]
    split <;> rfl
  · rfl

theorem shaped_setPixel {p : Params} {g : Grid} (h : g.shaped p = true) (r c : Nat) (b : Bool) :
    (g.setPixel r c b).shaped p = true := by
  obtain ⟨hl, hw⟩ := (shaped_iff p g).1 h
  rw [shaped_iff]
  refine ⟨by simp [Grid.setPixel, hl], fun row hrow => ?_⟩
  by_cases hr : r < p.fbRows
  · rcases List.mem_or_eq_of_mem_set hrow with hm | rfl
    · exact hw row hm
    · rw [List.length_set, shaped_row h hr]
  · rw [Grid.setPixel, List.set_eq_of_length_le (by omega)] at hrow
    exact hw row hrow

/-- Reading after writing, at any two positions of a shaped grid. -/
theorem pixel_setPixel {p : Params} {g : Grid} (h : g.shaped p = true) (r c r' c' : Nat) (b : Bool) :
    (g.setPixel r c b).pixel r' c' =
      if r' = r ∧ c' = c ∧ r < p.fbRows ∧ c < p.fbCols then b else g.pixel r' c' := by
  have hl := ((shaped_iff p g).1 h).1
  unfold Grid.pixel Grid.setPixel
  by_cases hr : r < p.fbRows
  · have hr' : r < g.length := by omega
    by_cases e : r' = r
    · subst e
      have hw := shaped_row h hr
      simp only [List.getD_eq_getElem?_getD, List.getElem?_set_self hr', Option.getD_some] at hw ⊢
      by_cases ec : c' = c
      · subst ec
        by_cases hc : c' < p.fbCols
        · simp [List.getElem?_set_self (show c' < _ by rw [hw]; exact hc), hr, hc]
        · simp [List.set_eq_of_length_le (show _ ≤ c' by rw [hw]; omega), hc]
      · have ec' : ¬ c = c' := fun x => ec x.symm
        simp [ec, ec']
    · have e' : ¬ r = r' := fun x => e x.symm
      simp [e, e']
  · rw [List.set_eq_of_length_le (by omega)]
    simp [hr]

/-- A plotted bit keeps the shape of the grid. -/
theorem shaped_plot {p : Params} {k : Canvas} (h : k.fb.shaped p = true) (row col : Nat) :
    (k.plot p row col).fb.shaped p = true := by
  unfold Canvas.plot
  split
  · split <;> exact shaped_setPixel h _ _ _
  · exact h

theorem shaped_drawByte {p : Params} {k : Canvas} (h : k.fb.shaped p = true) (row col : Nat) (bits : Byte) :
    (k.drawByte p row col bits).fb.shaped p = true := by
  have key : ∀ (l : List Nat) (k : Canvas), k.fb.shaped p = true →
      (l.foldl (fun k b => if bits.getLsbD (7 - b) then k.plot p row (col + b) else k) k).fb.shaped p = true := by
    intro l
    induction l with
    | nil => exact fun k h => h
    | cons b l ih =>
      intro k h
      refine ih _ ?_
      dsimp only
      split
      · exact shaped_plot h _ _
      · exact h
  exact key _ k h

theorem shaped_drawRows {p : Params} (col : Nat) : ∀ (rows : List Byte) (k : Canvas) (row : Nat),
    k.fb.shaped p = true → (k.drawRows p row col rows).fb.shaped p = true
  | [], _, _, h => h
  | bits :: rest, _, row, h => shaped_drawRows col rest _ (row + 1) (shaped_drawByte h row col bits)

/-- A draw keeps the shape of the grid. -/
theorem shaped_drawn {s : State} (h : s.fb.shaped s.params = true) (x y : Reg) (n : Nibble) :
    (s.drawn x y n).fb.shaped s.params = true :=
  shaped_drawRows _ _ _ _ h

/-- Everything a plotted bit does: nothing off screen; on screen it inverts the pixel, the collision is sticky, dirty set. -/
theorem plot_spec {p : Params} {k : Canvas} (hk : k.fb.shaped p = true) (row col : Nat) :
    (∀ r c, (k.plot p row col).fb.pixel r c =
      (k.fb.pixel r c ^^ decide (r = row ∧ c = col ∧ row < p.fbRows ∧ col < p.fbCols))) ∧
    (k.plot p row col).hit = (k.hit || (decide (row < p.fbRows ∧ col < p.fbCols) && k.fb.pixel row col)) ∧
    (k.plot p row col).dirty = (k.dirty || decide (row < p.fbRows ∧ col < p.fbCols)) := by
  unfold Canvas.plot
  by_cases h : row < p.fbRows ∧ col < p.fbCols
  · rw [if_pos h]
    by_cases hp : k.fb.pixel row col = true
    · rw [if_pos hp]
      refine ⟨fun r c => ?_, by simp [hp, h], by simp [h]⟩
      rw [pixel_setPixel hk]
      by_cases hrc : r = row ∧ c = col
      · obtain ⟨rfl, rfl⟩ := hrc; simp [h, hp]
      · have h1 : ¬ (r = row ∧ c = col ∧ row < p.fbRows ∧ col < p.fbCols) := fun e => hrc ⟨e.1, e.2.1⟩
        simp [h1]
    · rw [if_neg hp]
      refine ⟨fun r c => ?_, by simp [hp], by simp [h]⟩
      rw [pixel_setPixel hk]
      by_cases hrc : r = row ∧ c = col
      · obtain ⟨rfl, rfl⟩ := hrc; simp [h, hp]
      · have h1 : ¬ (r = row ∧ c = col ∧ row < p.fbRows ∧ col < p.fbCols) := fun e => hrc ⟨e.1, e.2.1⟩
        simp [h1]
  · rw [if_neg h]
    refine ⟨fun r c => ?_, ?_, ?_⟩
    · have h1 : ¬ (r = row ∧ c = col ∧ row < p.fbRows ∧ col < p.fbCols) := fun e => h e.2.2
      simp [h1]
    · simp [h]
    · simp [h]

end Sys2Proof.Machine
end

