-- ==== Sys2Proof/Laws/Memory.lean ====
section
/-!
SUPPORT. Memory: read after write, writes leave every other address alone, and every memory operation keeps the canonical
form (spec/20_memory.md R51, R52, R54).
-/

namespace Sys2Proof.Machine

variable {p : Params}

theorem read_cell_append (a b : Nat) (v : Byte) (m : Memory) :
    Memory.read p (Memory.cell p a v ++ m) b =
      if b = a ∧ v ≠ Memory.initial p a then v else Memory.read p m b := by
  unfold Memory.cell
  by_cases h : v = Memory.initial p a
  · simp [h]
  · by_cases hb : a = b
    · subst hb; simp [h, Memory.read]
    · have hb' : ¬ b = a := fun e => hb e.symm
      simp [h, Memory.read, hb, hb']

/-- Below its lowest cell a canonical memory reads as unlisted. -/
theorem read_below : ∀ (m : Memory) (low a : Nat), Memory.wfFrom p low m = true → a < low →
    Memory.read p m a = Memory.initial p a
  | [], _, _, _, _ => rfl
  | (b, u) :: rest, low, a, h, ha => by
    simp only [Memory.wfFrom, Bool.and_eq_true, decide_eq_true_eq] at h
    have hb : ¬ b = a := by omega
    simp only [Memory.read, if_neg hb]
    exact read_below rest (b + 1) a h.2 (by omega)

theorem wfFrom_mono : ∀ (m : Memory) (low low' : Nat), Memory.wfFrom p low m = true → low' ≤ low →
    Memory.wfFrom p low' m = true
  | [], _, _, _, _ => rfl
  | (b, u) :: rest, low, low', h, hl => by
    simp only [Memory.wfFrom, Bool.and_eq_true, decide_eq_true_eq] at h ⊢
    exact ⟨⟨⟨by omega, h.1.1.2⟩, h.1.2⟩, h.2⟩

theorem wfFrom_cell_append (m : Memory) (low a : Nat) (v : Byte) (hl : low ≤ a) (ha : a < p.memSize)
    (h : Memory.wfFrom p (a + 1) m = true) : Memory.wfFrom p low (Memory.cell p a v ++ m) = true := by
  unfold Memory.cell
  split
  · exact wfFrom_mono m (a + 1) low h (by omega)
  · simp_all [Memory.wfFrom]

theorem wfFrom_write : ∀ (m : Memory) (low a : Nat) (v : Byte), Memory.wfFrom p low m = true → low ≤ a →
    a < p.memSize → Memory.wfFrom p low (Memory.write p m a v) = true
  | [], low, a, v, _, hl, ha => by
    have := wfFrom_cell_append [] low a v hl ha rfl
    simpa [Memory.write] using this
  | (b, u) :: rest, low, a, v, h, hl, ha => by
    have h' := h
    simp only [Memory.wfFrom, Bool.and_eq_true, decide_eq_true_eq] at h
    unfold Memory.write
    split
    · refine wfFrom_cell_append _ low a v hl ha ?_
      simp only [Memory.wfFrom, Bool.and_eq_true, decide_eq_true_eq]
      exact ⟨⟨⟨by omega, h.1.1.2⟩, h.1.2⟩, h.2⟩
    · split
      · rename_i hab
        subst hab
        exact wfFrom_cell_append rest low a v hl ha h.2
      · simp only [Memory.wfFrom, Bool.and_eq_true, decide_eq_true_eq]
        exact ⟨h.1, wfFrom_write rest (b + 1) a v h.2 (by omega) ha⟩

/-- Read after write, at any two addresses of a canonical memory. -/
theorem read_write_wfFrom : ∀ (m : Memory) (low a b : Nat) (v : Byte), Memory.wfFrom p low m = true →
    Memory.read p (Memory.write p m a v) b = if b = a then v else Memory.read p m b
  | [], low, a, b, v, _ => by
    have h := read_cell_append (p := p) a b v []
    simp only [List.append_nil] at h
    rw [Memory.write, h]
    by_cases hb : b = a
    · subst hb
      by_cases hv : v = Memory.initial p b <;> simp [hv, Memory.read]
    · simp [hb]
  | (c, u) :: rest, low, a, b, v, h => by
    have h' := h
    simp only [Memory.wfFrom, Bool.and_eq_true, decide_eq_true_eq] at h
    unfold Memory.write
    by_cases hac : a < c
    · rw [if_pos hac, read_cell_append]
      by_cases hb : b = a
      · subst hb
        by_cases hv : v = Memory.initial p b
        · have hlow : Memory.wfFrom p c ((c, u) :: rest) = true := by
            simp only [Memory.wfFrom, Bool.and_eq_true, decide_eq_true_eq]
            exact ⟨⟨⟨by omega, h.1.1.2⟩, h.1.2⟩, h.2⟩
          simp [hv, read_below _ c b hlow hac]
        · simp [hv]
      · simp [hb]
    · rw [if_neg hac]
      by_cases hc : a = c
      · subst hc
        rw [if_pos rfl, read_cell_append]
        by_cases hb : b = a
        · subst hb
          by_cases hv : v = Memory.initial p b
          · simp [hv, read_below rest (b + 1) b h.2 (by omega)]
          · simp [hv]
        · have hb' : ¬ a = b := fun e => hb e.symm
          simp [hb, Memory.read, hb']
      · rw [if_neg hc]
        simp only [Memory.read]
        by_cases hcb : c = b
        · have : ¬ b = a := by omega
          simp [hcb, this]
        · simp only [if_neg hcb]
          exact read_write_wfFrom rest (c + 1) a b v h.2

/-- A write leaves every other address alone, canonical form or not. -/
theorem read_write_other : ∀ (m : Memory) (a b : Nat) (v : Byte), b ≠ a →
    Memory.read p (Memory.write p m a v) b = Memory.read p m b
  | [], a, b, v, hb => by
    have h := read_cell_append (p := p) a b v []
    simp only [List.append_nil] at h
    rw [Memory.write, h]
    simp [hb]
  | (c, u) :: rest, a, b, v, hb => by
    unfold Memory.write
    by_cases hac : a < c
    · rw [if_pos hac, read_cell_append]; simp [hb]
    · rw [if_neg hac]
      by_cases hc : a = c
      · subst hc
        have hb' : ¬ a = b := fun e => hb e.symm
        rw [if_pos rfl, read_cell_append]
        simp [hb, Memory.read, hb']
      · rw [if_neg hc]
        simp only [Memory.read]
        split
        · rfl
        · exact read_write_other rest a b v hb

theorem read_write {m : Memory} (h : Memory.wf p m = true) (a b : Nat) (v : Byte) :
    Memory.read p (Memory.write p m a v) b = if b = a then v else Memory.read p m b :=
  read_write_wfFrom m 0 a b v h

theorem wf_write {m : Memory} (h : Memory.wf p m = true) {a : Nat} (ha : a < p.memSize) (v : Byte) :
    Memory.wf p (Memory.write p m a v) = true :=
  wfFrom_write m 0 a v h (by omega) ha

theorem wf_writePair {m : Memory} (h : Memory.wf p m = true) {a : Nat} (ha : a + 1 < p.memSize) (w : Word) :
    Memory.wf p (Memory.writePair p m a w) = true :=
  wf_write (wf_write h (by omega) _) ha _

theorem wf_writeBlock : ∀ (vs : List Byte) (m : Memory) (base : Nat), Memory.wf p m = true →
    base + vs.length ≤ p.memSize → Memory.wf p (Memory.writeBlock p m base vs) = true
  | [], _, _, h, _ => h
  | v :: vs, m, base, h, hl => by
    simp only [List.length_cons] at hl
    exact wf_writeBlock vs _ _ (wf_write h (by omega) v) (by omega)

/-- A pair written is read back, high byte first. -/
theorem read_writePair {m : Memory} (h : Memory.wf p m = true) {a : Nat} (ha : a + 1 < p.memSize) (w : Word) (b : Nat) :
    Memory.read p (Memory.writePair p m a w) b =
      if b = a then highByte w else if b = a + 1 then lowByte w else Memory.read p m b := by
  unfold Memory.writePair
  rw [read_write (wf_write h (by omega) _), read_write h]
  by_cases h1 : b = a
  · subst h1; simp
  · simp [h1]

/-- A pair write leaves every address but its two alone. -/
theorem read_writePair_other (m : Memory) (a : Nat) (w : Word) {b : Nat} (h1 : b ≠ a) (h2 : b ≠ a + 1) :
    Memory.read p (Memory.writePair p m a w) b = Memory.read p m b := by
  unfold Memory.writePair
  rw [read_write_other _ _ _ _ h2, read_write_other _ _ _ _ h1]

theorem read_writeBlock_other : ∀ (vs : List Byte) (m : Memory) (base b : Nat),
    ¬ (base ≤ b ∧ b < base + vs.length) → Memory.read p (Memory.writeBlock p m base vs) b = Memory.read p m b
  | [], _, _, _, _ => rfl
  | v :: vs, m, base, b, h => by
    simp only [List.length_cons] at h
    unfold Memory.writeBlock
    rw [read_writeBlock_other vs _ _ b (by omega), read_write_other _ _ _ _ (by omega)]

/-- A block written is read back byte by byte. -/
theorem read_writeBlock : ∀ (vs : List Byte) (m : Memory) (base k : Nat) (hk : k < vs.length), Memory.wf p m = true →
    base + vs.length ≤ p.memSize → Memory.read p (Memory.writeBlock p m base vs) (base + k) = vs[k]
  | v :: vs, m, base, k, hk, h, hl => by
    simp only [List.length_cons] at hl hk
    unfold Memory.writeBlock
    cases k with
    | zero =>
      rw [read_writeBlock_other vs _ _ _ (by omega), read_write h]
      simp
    | succ k =>
      have := read_writeBlock vs _ (base + 1) k (by omega) (wf_write h (show base < p.memSize by omega) v) (by omega)
      rw [show base + (k + 1) = base + 1 + k by omega, this]
      simp

/-! ### The same for a state -/

/-- A pair stored is read back, high byte first. -/
theorem byte_storePair {s : State} (h : s.memWf = true) {a : Nat} (ha : a + 1 < s.params.memSize) (w : Word) (b : Nat) :
    (s.storePair a w).byte b = if b = a then highByte w else if b = a + 1 then lowByte w else s.byte b :=
  read_writePair h ha w b

theorem byte_storePair_other (s : State) (a : Nat) (w : Word) {b : Nat} (h1 : b ≠ a) (h2 : b ≠ a + 1) :
    (s.storePair a w).byte b = s.byte b :=
  read_writePair_other s.mem a w h1 h2

theorem byte_storeBlock_other (s : State) (base : Nat) (vs : List Byte) {b : Nat}
    (h : ¬ (base ≤ b ∧ b < base + vs.length)) : (s.storeBlock base vs).byte b = s.byte b :=
  read_writeBlock_other vs s.mem base b h

/-- A block stored is read back byte by byte. -/
theorem byte_storeBlock {s : State} (h : s.memWf = true) {base : Nat} {vs : List Byte}
    (hl : base + vs.length ≤ s.params.memSize) (k : Nat) (hk : k < vs.length) :
    (s.storeBlock base vs).byte (base + k) = vs[k] :=
  read_writeBlock vs s.mem base k hk h hl

theorem memWf_storePair {s : State} (h : s.memWf = true) {a : Nat} (ha : a + 1 < s.params.memSize) (w : Word) :
    (s.storePair a w).memWf = true :=
  wf_writePair h ha w

theorem memWf_storeBlock {s : State} (h : s.memWf = true) {base : Nat} {vs : List Byte}
    (hl : base + vs.length ≤ s.params.memSize) : (s.storeBlock base vs).memWf = true :=
  wf_writeBlock vs s.mem base h hl

/-- A state with the same memory and parameters reads the same bytes. -/
theorem byte_congr {s t : State} (hm : t.mem = s.mem) (hp : t.params = s.params) (a : Nat) : t.byte a = s.byte a := by
  unfold State.byte
  rw [hm, hp]

end Sys2Proof.Machine
end

