-- ==== Sys2Proof/Laws/Ops.lean ====
section
/-!
SUPPORT. What each shared operation can do, said once: range checks, key-index checks, faults, flags, ports, the
environment's turn.
-/

namespace Sys2Proof.Machine

theorem rangeFault_of_fits {p : Params} {base count : Nat} (h : base + count ≤ p.memSize) :
    rangeFault p base count = none := by
  unfold rangeFault
  rw [if_neg (by omega)]

theorem rangeFault_of_past {p : Params} {base count : Nat} (h : p.memSize < base + count) :
    rangeFault p base count = some (max base p.memSize) := by
  unfold rangeFault
  rw [if_pos h]

theorem withRange_fits {base count : Nat} {s : State} (h : base + count ≤ s.params.memSize) (i : Instr)
    (k : Host.Outcome State Fault Refusal) : withRange base count i s k = k := by
  unfold withRange
  rw [rangeFault_of_fits h]

theorem withRange_past {base count : Nat} {s : State} (h : s.params.memSize < base + count) (i : Instr)
    (k : Host.Outcome State Fault Refusal) :
    withRange base count i s k = raise .memoryOutOfRange (max base s.params.memSize) i s := by
  unfold withRange
  rw [rangeFault_of_past h]

/-- Everything a range-checked operation can do. -/
theorem withRange_cases (base count : Nat) (i : Instr) (s : State) (k : Host.Outcome State Fault Refusal) :
    (base + count ≤ s.params.memSize ∧ withRange base count i s k = k) ∨
      (s.params.memSize < base + count ∧
        withRange base count i s k = raise .memoryOutOfRange (max base s.params.memSize) i s) := by
  by_cases h : base + count ≤ s.params.memSize
  · exact .inl ⟨h, withRange_fits h i k⟩
  · exact .inr ⟨by omega, withRange_past (by omega) i k⟩

theorem withKeyIndex_in {k : Byte} {s : State} (h : k.toNat < s.params.nkeys) (i : Instr)
    (o : Host.Outcome State Fault Refusal) : withKeyIndex k i s o = o := by
  unfold withKeyIndex
  rw [if_neg (by omega)]

theorem withKeyIndex_above {k : Byte} {s : State} (h : s.params.nkeys ≤ k.toNat) (i : Instr)
    (o : Host.Outcome State Fault Refusal) : withKeyIndex k i s o = raise .keyIndexOutOfRange k.toNat i s := by
  unfold withKeyIndex
  rw [if_pos h]

/-- A fault answers the state that holds the record. -/
theorem raise_eq (kind : FaultKind) (info : Nat) (i : Instr) (s : State) :
    raise kind info i s =
      .next { s with run := .faulted { kind := kind, addr := s.pc - 2, word := some (encode i), info := info } } :=
  rfl

theorem addResult_toNat (a b : Byte) : (addResult a b).toNat = (a.toNat + b.toNat) % 256 := by
  simp [addResult]

theorem subResult_toNat (a b : Byte) : (subResult a b).toNat = (256 + a.toNat - b.toNat) % 256 := by
  have h1 := a.isLt
  have h2 := b.isLt
  simp only [subResult, BitVec.toNat_ofInt]
  omega

theorem shrResult_toNat (v : Byte) : (shrResult v).toNat = v.toNat / 2 := by
  have := v.isLt
  simp [shrResult]
  omega

theorem shlResult_toNat (v : Byte) : (shlResult v).toNat = 2 * v.toNat % 256 := by
  simp [shlResult]

theorem flagByte_toNat (c : Bool) : (flagByte c).toNat = if c then 1 else 0 := by
  cases c <;> rfl

theorem lowBitFlag_toNat (v : Byte) : (flagByte (lowBitFlag v)).toNat = v.toNat % 2 := by
  revert v; decide

theorem highBitFlag_toNat (v : Byte) : (flagByte (highBitFlag v)).toNat = v.toNat / 128 := by
  revert v; decide

/-- Fx1E, the sum fits I. -/
theorem execAddI_fits {x : Reg} {s : State} (h : s.I + s.regNat x < 2 ^ s.params.iWidth) :
    execAddI x s = .next (s.setI (s.I + s.regNat x)) :=
  if_neg (by omega)

/-- Fx1E, the sum does not fit I. -/
theorem execAddI_overflow {x : Reg} {s : State} (h : 2 ^ s.params.iWidth ≤ s.I + s.regNat x) :
    execAddI x s = raise .indexOverflow (s.I + s.regNat x) (.addI x) s :=
  if_pos h

theorem zextAddr_lt (nnn : Addr12) : zextAddr nnn < 2 ^ 12 := nnn.isLt

/-- The environment's turn changes ports and its own inputs alone. -/
theorem envTurn_eq (s : State) : s.envTurn = { s with ports := s.envTurn.ports, env := s.envTurn.env } := rfl

/-- Offering keeps both output buffers within their capacities, and the input side as it was. -/
theorem offer_keeps_caps (c : Params) (p : Ports) (e : Event) :
    (p.sound ≤ c.capSound → (p.offer c e).sound ≤ c.capSound) ∧
      (p.frames.length ≤ c.capFrame → (p.offer c e).frames.length ≤ c.capFrame) ∧
      (p.offer c e).keyEvents = p.keyEvents ∧ (p.offer c e).keyLevels = p.keyLevels := by
  cases e with
  | frameOut g =>
    refine ⟨id, fun h => ?_, rfl, rfl⟩
    simp only [Ports.offer]
    split
    · simp_all
    · exact h
  | sound =>
    refine ⟨fun h => ?_, id, rfl, rfl⟩
    simp only [Ports.offer]
    split
    · simp_all
    · exact h
  | keyWait x => exact ⟨id, id, rfl, rfl⟩
  | unknownOpcode a w => exact ⟨id, id, rfl, rfl⟩

/-- What is true of a port set between the environment's moves, `room` counting the place a waiting block gives a key. -/
structure Ports.Within (c : Params) (room : Nat) (p : Ports) : Prop where
  sound : p.sound ≤ c.capSound
  frames : p.frames.length ≤ c.capFrame
  levels : p.keyLevels.length ≤ c.capKeyLevel
  shapes : ∀ flags ∈ p.keyLevels, flags.length = c.nkeys
  events : p.keyEvents.length ≤ c.capKeyEvent + room
  eventsDown : p.keyEventUp = false → p.keyEvents.length ≤ c.capKeyEvent
  range : ∀ k ∈ p.keyEvents, k < c.nkeys

theorem lossyOffer_keeps {c : Params} {replace : Bool} {v : KeyFlags} {held : List KeyFlags}
    (hl : held.length ≤ c.capKeyLevel) (hs : ∀ flags ∈ held, flags.length = c.nkeys) (hv : v.length = c.nkeys) :
    (lossyOffer c.capKeyLevel replace v held).length ≤ c.capKeyLevel ∧
      ∀ flags ∈ lossyOffer c.capKeyLevel replace v held, flags.length = c.nkeys := by
  unfold lossyOffer
  split
  · refine ⟨by simp; omega, fun flags h => ?_⟩
    rcases List.mem_append.1 h with h | h
    · exact hs flags h
    · rw [List.mem_singleton.1 h]; exact hv
  · split
    · refine ⟨by simp [hl], fun flags h => ?_⟩
      rcases List.mem_or_eq_of_mem_set h with h | rfl
      · exact hs flags h
      · exact hv
    · exact ⟨hl, hs⟩

/-- A move of the environment keeps every port within its capacity, and its inputs of the port's kind. -/
theorem move_keeps_within {c : Params} {b : Bool} {p : Ports} (h : p.Within c b.toNat) (m : EnvMove) :
    (p.move c b m).Within c b.toNat := by
  obtain ⟨h1, h2, h3, h4, h5, h6, h7⟩ := h
  cases m with
  | offerKeys v r =>
    unfold Ports.move
    by_cases hc : (p.keyLevelUp && decide (v.length = c.nkeys)) = true
    · have hv : v.length = c.nkeys := by simp at hc; exact hc.2
      simp only [hc, if_true]
      exact ⟨h1, h2, (lossyOffer_keeps h3 h4 hv).1, (lossyOffer_keeps h3 h4 hv).2, h5, h6, h7⟩
    · simp only [hc]
      exact ⟨h1, h2, h3, h4, h5, h6, h7⟩
  | deliverKey k =>
    unfold Ports.move
    by_cases hc : (p.keyEventUp && decide (k < c.nkeys) && decide (p.keyEvents.length < c.capKeyEvent + b.toNat)) = true
    · simp only [hc, if_true]
      simp only [Bool.and_eq_true, decide_eq_true_eq] at hc
      refine ⟨h1, h2, h3, h4, by simp; omega, fun hd => by simp [hc.1.1] at hd, fun j hj => ?_⟩
      rcases List.mem_append.1 hj with hj | hj
      · exact h7 j hj
      · rw [List.mem_singleton.1 hj]; exact hc.1.2
    · simp only [hc]
      exact ⟨h1, h2, h3, h4, h5, h6, h7⟩
  | takeSound => exact ⟨by simp only [Ports.move]; omega, h2, h3, h4, h5, h6, h7⟩
  | takeFrame => exact ⟨h1, by simp only [Ports.move, List.length_drop]; omega, h3, h4, h5, h6, h7⟩
  | disconnect q =>
    cases q with
    | keyLevel => exact ⟨h1, h2, by simp [Ports.move], by simp [Ports.move], h5, h6, h7⟩
    | keyEvent => exact ⟨h1, h2, h3, h4, by simp [Ports.move], by simp [Ports.move], by simp [Ports.move]⟩
    | sound => exact ⟨h1, h2, h3, h4, h5, h6, h7⟩
    | frame => exact ⟨h1, h2, h3, h4, h5, h6, h7⟩

theorem moves_keep_within {c : Params} {b : Bool} (ms : List EnvMove) : ∀ p : Ports, p.Within c b.toNat →
    (ms.foldl (Ports.move c b) p).Within c b.toNat := by
  induction ms with
  | nil => exact fun _ h => h
  | cons m ms ih => exact fun p h => ih _ (move_keeps_within h m)

end Sys2Proof.Machine
end

