-- ==== Sys2Proof/Laws/PerInstr.lean ====
section
/-!
SUPPORT. The family TableRow: every instruction's word matches its own row of spec/opcode_table.json, by the row's mask and
pattern (spec/30_encoding.md R75, R77).
-/

namespace Sys2Proof.Laws

theorem packNNN_and (c a : Nibble) (d b : Addr12) :
    packNNN c d &&& packNNN a b = packNNN (c &&& a) (d &&& b) := by
  apply BitVec.eq_of_getLsbD_eq
  intro i h
  simp only [BitVec.getLsbD_and, getLsbD_packNNN]
  split <;> rfl

theorem packXKK_and (c x a b : Nibble) (k d : Byte) :
    packXKK c x k &&& packXKK a b d = packXKK (c &&& a) (x &&& b) (k &&& d) := by
  apply BitVec.eq_of_getLsbD_eq
  intro i h
  simp only [BitVec.getLsbD_and, getLsbD_packXKK]
  split
  · rfl
  · split <;> rfl

theorem packXYN_and (c x y n a b d e : Nibble) :
    packXYN c x y n &&& packXYN a b d e = packXYN (c &&& a) (x &&& b) (y &&& d) (n &&& e) := by
  apply BitVec.eq_of_getLsbD_eq
  intro i h
  simp only [BitVec.getLsbD_and, getLsbD_packXYN]
  split
  · rfl
  · split
    · rfl
    · split <;> rfl

/-- A word of class `c` under the class mask. -/
theorem packNNN_class (c : Nibble) (nnn : Addr12) : packNNN c nnn &&& 0xF000#16 = packNNN c 0#12 := by
  rw [show 0xF000#16 = packNNN 0xF#4 0#12 by decide, packNNN_and, BitVec.and_zero]
  congr 1; revert c; decide

theorem packXKK_class (c x : Nibble) (kk : Byte) : packXKK c x kk &&& 0xF000#16 = packXKK c 0#4 0#8 := by
  rw [show 0xF000#16 = packXKK 0xF#4 0#4 0#8 by decide, packXKK_and, BitVec.and_zero, BitVec.and_zero]
  congr 1; revert c; decide

theorem packXYN_class (c x y n : Nibble) : packXYN c x y n &&& 0xF000#16 = packXYN c 0#4 0#4 0#4 := by
  rw [show 0xF000#16 = packXYN 0xF#4 0#4 0#4 0#4 by decide, packXYN_and, BitVec.and_zero, BitVec.and_zero,
    BitVec.and_zero]
  congr 1; revert c; decide

/-- A word of class `c` and low byte `kk` under the mask of classes 0, E and F. -/
theorem packXKK_low (c x : Nibble) (kk : Byte) : packXKK c x kk &&& 0xF0FF#16 = packXKK c 0#4 kk := by
  rw [show 0xF0FF#16 = packXKK 0xF#4 0#4 0xFF#8 by decide, packXKK_and, BitVec.and_zero]
  rw [show c &&& 0xF#4 = c by revert c; decide, show kk &&& 0xFF#8 = kk by revert kk; decide]

/-- A word of class `c` and low nibble `n` under the mask of class 8. -/
theorem packXYN_low (c x y n : Nibble) : packXYN c x y n &&& 0xF00F#16 = packXYN c 0#4 0#4 n := by
  rw [show 0xF00F#16 = packXYN 0xF#4 0#4 0#4 0xF#4 by decide, packXYN_and, BitVec.and_zero, BitVec.and_zero]
  rw [show c &&& 0xF#4 = c by revert c; decide, show n &&& 0xF#4 = n by revert n; decide]

/-- The instruction's word matches the row of the opcode table that its mnemonic names. -/
def TableRow.Statement (i : Instr) : Prop :=
  ∃ r ∈ exactRows ++ fallbackRows, r.mnemonic = i.mnemonic ∧ encode i &&& r.mask = r.pattern


theorem TableRow.cls (_x : Nibble) : TableRow.Statement (.cls _x) :=
  ⟨⟨"CLS", 0xF0FF#16, 0x00E0#16⟩, by decide, rfl, by simp only [encode]; rw [packXKK_low]; decide⟩

theorem TableRow.ret (_x : Nibble) : TableRow.Statement (.ret _x) :=
  ⟨⟨"RET", 0xF0FF#16, 0x00EE#16⟩, by decide, rfl, by simp only [encode]; rw [packXKK_low]; decide⟩

theorem TableRow.jp (nnn : Addr12) : TableRow.Statement (.jp nnn) :=
  ⟨⟨"JP_nnn", 0xF000#16, 0x1000#16⟩, by decide, rfl, by simp only [encode]; rw [packNNN_class]; decide⟩

theorem TableRow.call (nnn : Addr12) : TableRow.Statement (.call nnn) :=
  ⟨⟨"CALL_nnn", 0xF000#16, 0x2000#16⟩, by decide, rfl, by simp only [encode]; rw [packNNN_class]; decide⟩

theorem TableRow.seImm (x : Reg) (kk : Byte) : TableRow.Statement (.seImm x kk) :=
  ⟨⟨"SE_Vx__kk", 0xF000#16, 0x3000#16⟩, by decide, rfl, by simp only [encode]; rw [packXKK_class]; decide⟩

theorem TableRow.sneImm (x : Reg) (kk : Byte) : TableRow.Statement (.sneImm x kk) :=
  ⟨⟨"SNE_Vx__kk", 0xF000#16, 0x4000#16⟩, by decide, rfl, by simp only [encode]; rw [packXKK_class]; decide⟩

theorem TableRow.seReg (x y : Reg) (_n : Nibble) : TableRow.Statement (.seReg x y _n) :=
  ⟨⟨"SE_Vx__Vy", 0xF000#16, 0x5000#16⟩, by decide, rfl, by simp only [encode]; rw [packXYN_class]; decide⟩

theorem TableRow.ldImm (x : Reg) (kk : Byte) : TableRow.Statement (.ldImm x kk) :=
  ⟨⟨"LD_Vx__kk", 0xF000#16, 0x6000#16⟩, by decide, rfl, by simp only [encode]; rw [packXKK_class]; decide⟩

theorem TableRow.addImm (x : Reg) (kk : Byte) : TableRow.Statement (.addImm x kk) :=
  ⟨⟨"ADD_Vx__kk", 0xF000#16, 0x7000#16⟩, by decide, rfl, by simp only [encode]; rw [packXKK_class]; decide⟩

theorem TableRow.movReg (x y : Reg) : TableRow.Statement (.movReg x y) :=
  ⟨⟨"MOV_Vx__Vy", 0xF00F#16, 0x8000#16⟩, by decide, rfl, by simp only [encode]; rw [packXYN_low]; decide⟩

theorem TableRow.orReg (x y : Reg) : TableRow.Statement (.orReg x y) :=
  ⟨⟨"OR_Vx__Vy", 0xF00F#16, 0x8001#16⟩, by decide, rfl, by simp only [encode]; rw [packXYN_low]; decide⟩

theorem TableRow.andReg (x y : Reg) : TableRow.Statement (.andReg x y) :=
  ⟨⟨"AND_Vx__Vy", 0xF00F#16, 0x8002#16⟩, by decide, rfl, by simp only [encode]; rw [packXYN_low]; decide⟩

theorem TableRow.xorReg (x y : Reg) : TableRow.Statement (.xorReg x y) :=
  ⟨⟨"XOR_Vx__Vy", 0xF00F#16, 0x8003#16⟩, by decide, rfl, by simp only [encode]; rw [packXYN_low]; decide⟩

theorem TableRow.addReg (x y : Reg) : TableRow.Statement (.addReg x y) :=
  ⟨⟨"ADD_Vx__Vy", 0xF00F#16, 0x8004#16⟩, by decide, rfl, by simp only [encode]; rw [packXYN_low]; decide⟩

theorem TableRow.subReg (x y : Reg) : TableRow.Statement (.subReg x y) :=
  ⟨⟨"SUB_Vx__Vy", 0xF00F#16, 0x8005#16⟩, by decide, rfl, by simp only [encode]; rw [packXYN_low]; decide⟩

theorem TableRow.shr (x : Reg) (_y : Nibble) : TableRow.Statement (.shr x _y) :=
  ⟨⟨"SHR_Vx", 0xF00F#16, 0x8006#16⟩, by decide, rfl, by simp only [encode]; rw [packXYN_low]; decide⟩

theorem TableRow.subbReg (x y : Reg) : TableRow.Statement (.subbReg x y) :=
  ⟨⟨"SUBB_Vx__Vy", 0xF00F#16, 0x8007#16⟩, by decide, rfl, by simp only [encode]; rw [packXYN_low]; decide⟩

theorem TableRow.shl (x : Reg) (_y : Nibble) : TableRow.Statement (.shl x _y) :=
  ⟨⟨"SHL_Vx", 0xF00F#16, 0x800E#16⟩, by decide, rfl, by simp only [encode]; rw [packXYN_low]; decide⟩

theorem TableRow.sneReg (x y : Reg) (_n : Nibble) : TableRow.Statement (.sneReg x y _n) :=
  ⟨⟨"SNE_Vx__Vy", 0xF000#16, 0x9000#16⟩, by decide, rfl, by simp only [encode]; rw [packXYN_class]; decide⟩

theorem TableRow.ldI (nnn : Addr12) : TableRow.Statement (.ldI nnn) :=
  ⟨⟨"LD_I__nnn", 0xF000#16, 0xA000#16⟩, by decide, rfl, by simp only [encode]; rw [packNNN_class]; decide⟩

theorem TableRow.jpV0 (nnn : Addr12) : TableRow.Statement (.jpV0 nnn) :=
  ⟨⟨"JP_V0__nnn", 0xF000#16, 0xB000#16⟩, by decide, rfl, by simp only [encode]; rw [packNNN_class]; decide⟩

theorem TableRow.rnd (x : Reg) (kk : Byte) : TableRow.Statement (.rnd x kk) :=
  ⟨⟨"RND_Vx__kk", 0xF000#16, 0xC000#16⟩, by decide, rfl, by simp only [encode]; rw [packXKK_class]; decide⟩

theorem TableRow.drw (x y : Reg) (n : Nibble) : TableRow.Statement (.drw x y n) :=
  ⟨⟨"DRW_Vx__Vy__n", 0xF000#16, 0xD000#16⟩, by decide, rfl, by simp only [encode]; rw [packXYN_class]; decide⟩

theorem TableRow.skp (x : Reg) : TableRow.Statement (.skp x) :=
  ⟨⟨"SKP_Vx", 0xF0FF#16, 0xE09E#16⟩, by decide, rfl, by simp only [encode]; rw [packXKK_low]; decide⟩

theorem TableRow.sknp (x : Reg) : TableRow.Statement (.sknp x) :=
  ⟨⟨"SKNP_Vx", 0xF0FF#16, 0xE0A1#16⟩, by decide, rfl, by simp only [encode]; rw [packXKK_low]; decide⟩

theorem TableRow.ldVxDT (x : Reg) : TableRow.Statement (.ldVxDT x) :=
  ⟨⟨"LD_Vx__DT", 0xF0FF#16, 0xF007#16⟩, by decide, rfl, by simp only [encode]; rw [packXKK_low]; decide⟩

theorem TableRow.ldVxK (x : Reg) : TableRow.Statement (.ldVxK x) :=
  ⟨⟨"LD_Vx__K", 0xF0FF#16, 0xF00A#16⟩, by decide, rfl, by simp only [encode]; rw [packXKK_low]; decide⟩

theorem TableRow.ldDTVx (x : Reg) : TableRow.Statement (.ldDTVx x) :=
  ⟨⟨"LD_DT__Vx", 0xF0FF#16, 0xF015#16⟩, by decide, rfl, by simp only [encode]; rw [packXKK_low]; decide⟩

theorem TableRow.ldSTVx (x : Reg) : TableRow.Statement (.ldSTVx x) :=
  ⟨⟨"LD_ST__Vx", 0xF0FF#16, 0xF018#16⟩, by decide, rfl, by simp only [encode]; rw [packXKK_low]; decide⟩

theorem TableRow.addI (x : Reg) : TableRow.Statement (.addI x) :=
  ⟨⟨"ADD_I__Vx", 0xF0FF#16, 0xF01E#16⟩, by decide, rfl, by simp only [encode]; rw [packXKK_low]; decide⟩

theorem TableRow.ldF (x : Reg) : TableRow.Statement (.ldF x) :=
  ⟨⟨"LD_F__Vx", 0xF0FF#16, 0xF029#16⟩, by decide, rfl, by simp only [encode]; rw [packXKK_low]; decide⟩

theorem TableRow.ldB (x : Reg) : TableRow.Statement (.ldB x) :=
  ⟨⟨"LD_B__Vx", 0xF0FF#16, 0xF033#16⟩, by decide, rfl, by simp only [encode]; rw [packXKK_low]; decide⟩

theorem TableRow.storeRegs (x : Reg) : TableRow.Statement (.storeRegs x) :=
  ⟨⟨"LD__I___Vx", 0xF0FF#16, 0xF055#16⟩, by decide, rfl, by simp only [encode]; rw [packXKK_low]; decide⟩

theorem TableRow.loadRegs (x : Reg) : TableRow.Statement (.loadRegs x) :=
  ⟨⟨"LD_Vx___I", 0xF0FF#16, 0xF065#16⟩, by decide, rfl, by simp only [encode]; rw [packXKK_low]; decide⟩

theorem TableRow.noop0 (x : Nibble) (kk : Byte) : TableRow.Statement (.noop0 x kk) :=
  ⟨⟨"no-op__class_0__kk_not_E0_EE", 0xF000#16, 0x0000#16⟩, by decide, rfl, by simp only [encode]; rw [packXKK_class]; decide⟩

theorem TableRow.noop8 (x y n : Nibble) : TableRow.Statement (.noop8 x y n) :=
  ⟨⟨"no-op__class_8__n_in_8..D__F", 0xF000#16, 0x8000#16⟩, by decide, rfl, by simp only [encode]; rw [packXYN_class]; decide⟩

theorem TableRow.noopE (x : Nibble) (kk : Byte) : TableRow.Statement (.noopE x kk) :=
  ⟨⟨"no-op__class_E__kk_not_9E_A1", 0xF000#16, 0xE000#16⟩, by decide, rfl, by simp only [encode]; rw [packXKK_class]; decide⟩

theorem TableRow.noopF (x : Nibble) (kk : Byte) : TableRow.Statement (.noopF x kk) :=
  ⟨⟨"no-op__class_F__unmapped_kk", 0xF000#16, 0xF000#16⟩, by decide, rfl, by simp only [encode]; rw [packXKK_class]; decide⟩

end Sys2Proof.Laws
end

