-- ==== Sys2Proof/Laws/Registers.lean ====
section
/-!
SUPPORT. Reading registers after each operation that writes them (spec/10_state.md R20, spec/42_register_arith.md R151,
spec/43_memory_index.md R186).
-/

namespace Sys2Proof.Machine

theorem reg_of_V {s t : State} (h : t.V = s.V) (j : Reg) : t.reg j = s.reg j := by
  simp [State.reg, State.regAt, h]

/-- A register that exists reads as its entry. -/
theorem regAt_of_lt {s : State} {i : Nat} (h : i < s.V.length) : s.regAt i = s.V[i] := by
  simp [State.regAt, List.getD_eq_getElem?_getD, h]

/-- With sane parameters every register an instruction names exists (spec/10_state.md R20). -/
theorem named_of_sized {s : State} (h : s.Sized) (x : Reg) : x.toNat < s.V.length := by
  have := x.isLt
  have := h.1.1
  have := h.2.1
  omega

/-- Setting entries keeps the number of registers. -/
theorem foldl_set_length (f : Nat → Byte) : ∀ (is : List Nat) (V : List Byte),
    (is.foldl (fun V i => V.set i (f i)) V).length = V.length
  | [], _ => rfl
  | i :: is, V => by simp [foldl_set_length f is]

theorem reg_setReg_other (s : State) {x j : Reg} (v : Byte) (h : j ≠ x) : (s.setReg x v).reg j = s.reg j := by
  have : x.toNat ≠ j.toNat := fun e => h (BitVec.eq_of_toNat_eq e.symm)
  simp [State.reg, State.regAt, List.getD_eq_getElem?_getD, this]

theorem reg_setReg {s : State} {x : Reg} (hx : x.toNat < s.V.length) (j : Reg) (v : Byte) :
    (s.setReg x v).reg j = if j = x then v else s.reg j := by
  split
  · rename_i h
    subst h
    simp [State.reg, State.regAt, List.getD_eq_getElem?_getD, hx]
  · rename_i h
    exact reg_setReg_other s v h

theorem reg_setReg_same {s : State} {x : Reg} (hx : x.toNat < s.V.length) (v : Byte) : (s.setReg x v).reg x = v := by
  simp [reg_setReg hx]

@[simp] theorem setReg_V_length (s : State) (x : Reg) (v : Byte) : (s.setReg x v).V.length = s.V.length := by simp

@[simp] theorem setRF_V_length (s : State) (x : Reg) (r : Byte) (f : Bool) :
    (s.setRF x r f).V.length = s.V.length := by
  unfold State.setRF
  split <;> simp

/-- Everything SetRF does to registers (R151). -/
theorem reg_setRF {s : State} {x : Reg} (hx : x.toNat < s.V.length) (hf : vf.toNat < s.V.length) (j : Reg) (r : Byte)
    (f : Bool) :
    (s.setRF x r f).reg j =
      if j = x ∧ j = vf then (if s.params.vfLast then flagByte f else r)
      else if j = x then r else if j = vf then flagByte f else s.reg j := by
  unfold State.setRF
  by_cases h1 : j = x <;> by_cases h2 : j = vf <;> cases s.params.vfLast <;>
    simp [reg_setReg, hx, hf, h1, h2] <;> simp_all

/-- SetRF leaves every register but its two alone, whichever exist. -/
theorem reg_setRF_other (s : State) {x j : Reg} (r : Byte) (f : Bool) (h1 : j ≠ x) (h2 : j ≠ vf) :
    (s.setRF x r f).reg j = s.reg j := by
  unfold State.setRF
  split <;> simp [reg_setReg_other, h1, h2]

/-- Everything a block load does to registers (spec/43_memory_index.md R186). -/
theorem regAt_loadRegsFrom (s : State) (base count i : Nat) :
    (s.loadRegsFrom base count).regAt i = if i < count ∧ i < s.V.length then s.byte (base + i) else s.regAt i := by
  simp only [State.loadRegsFrom, State.regAt, List.getD_eq_getElem?_getD]
  induction count with
  | zero => simp
  | succ k ih =>
    rw [List.range_succ, List.foldl_append]
    simp only [List.foldl_cons, List.foldl_nil]
    by_cases h : k = i
    · subst h
      by_cases hl : k < s.V.length
      · simp [hl, foldl_set_length]
      · simp [hl, foldl_set_length]
    · rw [List.getElem?_set_ne h, ih]
      by_cases h2 : i < k
      · simp [h2, show i < k + 1 by omega]
      · simp [h2, show ¬ i < k + 1 by omega]

@[simp] theorem loadRegsFrom_V_length (s : State) (base count : Nat) :
    (s.loadRegsFrom base count).V.length = s.V.length :=
  foldl_set_length _ _ _

theorem reg_loadRegsFrom {s : State} (hl : 16 ≤ s.V.length) (base count : Nat) (j : Reg) :
    (s.loadRegsFrom base count).reg j = if j.toNat < count then s.byte (base + j.toNat) else s.reg j := by
  have := j.isLt
  simp only [State.reg, regAt_loadRegsFrom, show j.toNat < s.V.length by omega, and_true]

@[simp] theorem regsUpTo_length (s : State) (x : Reg) : (s.regsUpTo x).length = x.toNat + 1 := by
  simp [State.regsUpTo]

theorem regsUpTo_getElem (s : State) (x j : Reg) (h : j.toNat < (s.regsUpTo x).length) :
    (s.regsUpTo x)[j.toNat] = s.reg j := by
  simp [State.regsUpTo, State.reg]

end Sys2Proof.Machine
end

