-- ==== Sys2Proof/Laws/Step.lean ====
section
/-!
SUPPORT. The step, row by row of spec/40_execution_cycle.md R115: which move each kind of state makes, and the one inversion
lemma that says everything a step that answers a next state can be.
-/

namespace Sys2Proof.Machine

@[simp] theorem envTurn_ipf (s : State) : s.envTurn.ipf = s.ipf := rfl

@[simp] theorem envTurn_progEnd (s : State) : s.envTurn.progEnd = s.progEnd := rfl

theorem step_of_settled {s : State} {o : Host.Outcome State Fault Refusal} (h : s.schedule = .settled o) :
    step s = o := by
  simp only [step, h]

theorem step_of_execute {s e : State} {i : Instr} (h : s.schedule = .execute i e) : step s = exec i e := by
  simp only [step, h]

theorem schedule_running {s : State} (hr : s.run = .running) : s.schedule = s.envTurn.runningMove := by
  simp only [State.schedule, State.blockMove, envTurn_run, hr]

theorem schedule_waiting {s : State} {x : Reg} (hr : s.run = .waitingKey x) : s.schedule = s.envTurn.waitingMove x := by
  simp only [State.schedule, State.blockMove, envTurn_run, hr]

theorem schedule_terminal {s : State} (hr : s.run = .halted ∨ ∃ r, s.run = .faulted r) :
    s.schedule = .settled (.next s.envTurn) := by
  rcases hr with h | ⟨r, h⟩ <;> simp only [State.schedule, State.blockMove, envTurn_run, h]

theorem runningMove_inFrame {e : State} (hp : e.phase = .inFrame) :
    e.runningMove =
      if e.slot < e.ipf then
        if e.pc < e.progEnd then e.beginSlot else .settled (.next { e with slot := e.slot + 1 })
      else if e.slot = e.ipf then .settled (.next { e with phase := .frameTail })
      else .settled (.fault .noRow) := by
  unfold State.runningMove
  split
  · rename_i h
    rw [hp] at h
    cases h
  · rfl
  · rename_i h
    rw [hp] at h
    cases h

/-- T3 as far as the fetch. -/
theorem schedule_slot {s : State} (hr : s.run = .running) (hp : s.phase = .inFrame) (hs : s.slot < s.ipf)
    (hpc : s.pc < s.progEnd) : s.schedule = s.envTurn.beginSlot := by
  have h1 : s.envTurn.slot < s.envTurn.ipf := hs
  have h2 : s.envTurn.pc < s.envTurn.progEnd := hpc
  rw [schedule_running hr, runningMove_inFrame (e := s.envTurn) hp, if_pos h1, if_pos h2]

/-- T3, the fetch succeeds. -/
theorem beginSlot_fits {e : State} (h : e.pc + 2 ≤ e.params.memSize) :
    e.beginSlot = .execute (decodeWord (e.pair e.pc)) e.slotEntry := by
  unfold State.beginSlot
  rw [rangeFault_of_fits h]

/-- T3, the fetch needs a byte beyond memory. -/
theorem beginSlot_past {e : State} (h : e.params.memSize < e.pc + 2) :
    e.beginSlot = .settled (.next (e.fetchFault (max e.pc e.params.memSize))) := by
  unfold State.beginSlot
  rw [rangeFault_of_past h]

/-- T4. -/
theorem schedule_emptySlot {s : State} (hr : s.run = .running) (hp : s.phase = .inFrame) (hs : s.slot < s.ipf)
    (hpc : ¬ s.pc < s.progEnd) : s.schedule = .settled (.next { s.envTurn with slot := s.slot + 1 }) := by
  have h1 : s.envTurn.slot < s.envTurn.ipf := hs
  have h2 : ¬ s.envTurn.pc < s.envTurn.progEnd := hpc
  rw [schedule_running hr, runningMove_inFrame (e := s.envTurn) hp, if_pos h1, if_neg h2, envTurn_slot]

/-- T5. -/
theorem schedule_slotsUsed {s : State} (hr : s.run = .running) (hp : s.phase = .inFrame) (hs : s.slot = s.ipf) :
    s.schedule = .settled (.next { s.envTurn with phase := .frameTail }) := by
  have h1 : ¬ s.envTurn.slot < s.envTurn.ipf := by rw [envTurn_slot, envTurn_ipf]; omega
  have h2 : s.envTurn.slot = s.envTurn.ipf := hs
  rw [schedule_running hr, runningMove_inFrame (e := s.envTurn) hp, if_neg h1, if_pos h2]

/-- More slots used than a frame has: no row applies. -/
theorem schedule_slotsOver {s : State} (hr : s.run = .running) (hp : s.phase = .inFrame) (hs : s.ipf < s.slot) :
    s.schedule = .settled (.fault .noRow) := by
  have h1 : ¬ s.envTurn.slot < s.envTurn.ipf := by rw [envTurn_slot, envTurn_ipf]; omega
  have h2 : ¬ s.envTurn.slot = s.envTurn.ipf := by rw [envTurn_slot, envTurn_ipf]; omega
  rw [schedule_running hr, runningMove_inFrame (e := s.envTurn) hp, if_neg h1, if_neg h2]

/-- T1, T2. -/
theorem schedule_frameHead {s : State} (hr : s.run = .running) (hp : s.phase = .frameHead) :
    s.schedule = .settled (.next s.envTurn.frameStart) := by
  rw [schedule_running hr]
  unfold State.runningMove
  rw [envTurn_phase, hp]

/-- T6. -/
theorem schedule_frameTail {s : State} (hr : s.run = .running) (hp : s.phase = .frameTail) :
    s.schedule = .settled (.next s.envTurn.frameFinish) := by
  rw [schedule_running hr]
  unfold State.runningMove
  rw [envTurn_phase, hp]

/-- T7, and no key yet. -/
theorem schedule_waitingInFrame {s : State} {x : Reg} (hr : s.run = .waitingKey x) (hp : s.phase = .inFrame) :
    (∃ k, s.envTurn.ports.deliveredKey = some k ∧ s.schedule = .settled (.next (s.envTurn.receiveKey x k))) ∨
      (s.envTurn.ports.deliveredKey = none ∧ s.schedule = .settled (.next s.envTurn)) := by
  rw [schedule_waiting hr]
  unfold State.waitingMove
  rw [envTurn_phase, hp]
  cases h : s.envTurn.ports.deliveredKey with
  | none => exact .inr ⟨rfl, rfl⟩
  | some k => exact .inl ⟨k, rfl, rfl⟩

/-- Waiting outside the slots: no row applies. -/
theorem schedule_waitingElsewhere {s : State} {x : Reg} (hr : s.run = .waitingKey x) (hp : s.phase ≠ .inFrame) :
    s.schedule = .settled (.fault .noRow) := by
  rw [schedule_waiting hr]
  unfold State.waitingMove
  rw [envTurn_phase]
  cases h : s.phase with
  | inFrame => exact absurd h hp
  | frameHead => rfl
  | frameTail => rfl

/-- Everything a step that answers a next state can be: one case a row of R115, over the state after the environment's
turn. -/
theorem step_cases {s t : State} (h : step s = .next t) :
    (t = s.envTurn ∧ ((s.run = .halted ∨ ∃ r, s.run = .faulted r) ∨
      ∃ x, s.run = .waitingKey x ∧ s.phase = .inFrame ∧ s.envTurn.ports.deliveredKey = none)) ∨
    (s.run = .running ∧ s.phase = .frameHead ∧ t = s.envTurn.frameStart) ∨
    (s.run = .running ∧ s.phase = .inFrame ∧ s.slot < s.ipf ∧ s.pc < s.progEnd ∧
      s.pc + 2 ≤ s.params.memSize ∧
      exec (decodeWord (s.pair s.pc)) s.envTurn.slotEntry = .next t) ∨
    (s.run = .running ∧ s.phase = .inFrame ∧ s.slot < s.ipf ∧ s.pc < s.progEnd ∧
      s.params.memSize < s.pc + 2 ∧ t = s.envTurn.fetchFault (max s.pc s.params.memSize)) ∨
    (s.run = .running ∧ s.phase = .inFrame ∧ s.slot < s.ipf ∧ s.progEnd ≤ s.pc ∧
      t = { s.envTurn with slot := s.slot + 1 }) ∨
    (s.run = .running ∧ s.phase = .inFrame ∧ s.slot = s.ipf ∧ t = { s.envTurn with phase := .frameTail }) ∨
    (s.run = .running ∧ s.phase = .frameTail ∧ t = s.envTurn.frameFinish) ∨
    (∃ x k, s.run = .waitingKey x ∧ s.phase = .inFrame ∧ s.envTurn.ports.deliveredKey = some k ∧
      t = s.envTurn.receiveKey x k) := by
  cases hr : s.run with
  | halted =>
    rw [step_of_settled (schedule_terminal (.inl hr))] at h
    cases h
    exact .inl ⟨rfl, .inl (.inl rfl)⟩
  | faulted r =>
    rw [step_of_settled (schedule_terminal (.inr ⟨r, hr⟩))] at h
    cases h
    exact .inl ⟨rfl, .inl (.inr ⟨r, rfl⟩)⟩
  | waitingKey x =>
    by_cases hp : s.phase = .inFrame
    · rcases schedule_waitingInFrame hr hp with ⟨k, hk, hs⟩ | ⟨hk, hs⟩
      · rw [step_of_settled hs] at h
        cases h
        exact .inr (.inr (.inr (.inr (.inr (.inr (.inr ⟨x, k, rfl, hp, hk, rfl⟩))))))
      · rw [step_of_settled hs] at h
        cases h
        exact .inl ⟨rfl, .inr ⟨x, rfl, hp, hk⟩⟩
    · rw [step_of_settled (schedule_waitingElsewhere hr hp)] at h
      cases h
  | running =>
    cases hp : s.phase with
    | frameHead =>
      rw [step_of_settled (schedule_frameHead hr hp)] at h
      cases h
      exact .inr (.inl ⟨rfl, rfl, rfl⟩)
    | frameTail =>
      rw [step_of_settled (schedule_frameTail hr hp)] at h
      cases h
      exact .inr (.inr (.inr (.inr (.inr (.inr (.inl ⟨rfl, rfl, rfl⟩))))))
    | inFrame =>
      rcases Nat.lt_trichotomy s.slot s.ipf with hs | hs | hs
      · by_cases hpc : s.pc < s.progEnd
        · by_cases hm : s.pc + 2 ≤ s.params.memSize
          · rw [step_of_execute ((schedule_slot hr hp hs hpc).trans (beginSlot_fits hm))] at h
            exact .inr (.inr (.inl ⟨rfl, rfl, hs, hpc, hm, h⟩))
          · have hm' : s.params.memSize < s.pc + 2 := by omega
            rw [step_of_settled ((schedule_slot hr hp hs hpc).trans (beginSlot_past hm'))] at h
            cases h
            exact .inr (.inr (.inr (.inl ⟨rfl, rfl, hs, hpc, hm', rfl⟩)))
        · rw [step_of_settled (schedule_emptySlot hr hp hs hpc)] at h
          cases h
          exact .inr (.inr (.inr (.inr (.inl ⟨rfl, rfl, hs, by omega, rfl⟩))))
      · rw [step_of_settled (schedule_slotsUsed hr hp hs)] at h
        cases h
        exact .inr (.inr (.inr (.inr (.inr (.inl ⟨rfl, rfl, hs, rfl⟩)))))
      · rw [step_of_settled (schedule_slotsOver hr hp hs)] at h
        cases h

end Sys2Proof.Machine
end

