-- ==== Sys2Proof/Tests/Slice0.lean ====
section
/-!
SUPPORT. Tests: ill-formed terms refused, words of spec/30_encoding.md decoded, one instruction or one step of the vectors of
spec/95_test_vectors.md (its expected results, not the model's), and for every statement with hypotheses a witness that meets
them, at the ends of their ranges.
-/

namespace Sys2Proof.Tests

open Sys2Proof.Machine

/-! ### Helpers -/

/-- The state in which the instruction at 0x200 executes: reset, pc advanced, one environment turn without moves. -/
def base : State :=
  { State.reset with pc := 0x202, len := 2, phase := .inFrame, slot := 1, env := { Env.free with script := [[]] } }

/-- `base` with registers set. -/
def withRegs (rs : List (Reg × Byte)) : State := rs.foldl (fun s r => s.setReg r.1 r.2) base

/-- `base` with VF_LAST false and registers set. -/
def withRegsFirst (rs : List (Reg × Byte)) : State :=
  { withRegs rs with params := { Params.default with vfLast := false } }

/-- The outcome is a next state with the property. -/
def gives (o : Host.Outcome State Fault Refusal) (p : State → Bool) : Bool :=
  match o with
  | .next s => p s
  | .fault _ | .refused _ => false

/-- The run state is Faulted with code, address, word and info, pc is 0x202, and nothing was written: the rest is `s`. -/
def faultsAs (o : Host.Outcome State Fault Refusal) (s : State) (code : Nat) (w : Word) (info : Nat) : Bool :=
  gives o fun t =>
    match t.run with
    | .faulted r =>
      r.kind.code == code && r.addr == 0x200 && r.word == some w && r.info == info && t.pc == 0x202 &&
        decide (t.V = s.V) && decide (t.mem = s.mem) && decide (t.fb = s.fb) && t.I == s.I && t.SP == s.SP &&
        t.dirty == s.dirty && t.trace.isEmpty
    | .running | .waitingKey _ | .halted => false

/-- The pixels of a grid that are on, row by row. -/
def pixelsOn (g : Grid) : List (Nat × Nat) :=
  (List.range 32).flatMap fun r => ((List.range 64).filter fun c => g.pixel r c).map fun c => (r, c)

/-- A state about to run the word 6A2B in its first slot. -/
def ready : State := { base with pc := 0x200, slot := 0 }.withFetchWord 16 0x6A2B

/-- Sixteen key flags with one key down. -/
def oneKey (k : Nat) : KeyFlags := (List.replicate 16 false).set k true

/-- The blank grid of 32 rows of 64 pixels. -/
def blank : Grid := Grid.blank Params.default

/-! ### Well-formedness: each check refuses an ill-formed term -/

theorem test_wf_noop0 : WellFormed (.noop0 0#4 0xE0#8) = false ∧ WellFormed (.noop0 5#4 0xEE#8) = false := by decide
theorem test_wf_noop8 : WellFormed (.noop8 1#4 2#4 0xE#4) = false ∧ WellFormed (.noop8 1#4 2#4 0x0#4) = false := by decide
theorem test_wf_noopE : WellFormed (.noopE 1#4 0x9E#8) = false ∧ WellFormed (.noopE 1#4 0xA1#8) = false := by decide
theorem test_wf_noopF : WellFormed (.noopF 1#4 0x07#8) = false ∧ WellFormed (.noopF 1#4 0x65#8) = false := by decide

/-! ### Decoding, words from spec/30_encoding.md R72, R75 to R77 -/

theorem test_decode_cls : decodeWord 0x05E0#16 = .cls 5#4 := by decide
theorem test_decode_ret : decodeWord 0x0AEE#16 = .ret 0xA#4 := by decide
theorem test_decode_jp : decodeWord 0x1ABC#16 = .jp 0xABC#12 := by decide
theorem test_decode_call : decodeWord 0x2345#16 = .call 0x345#12 := by decide
theorem test_decode_seImm : decodeWord 0x3342#16 = .seImm 3#4 0x42#8 := by decide
theorem test_decode_sneImm : decodeWord 0x4C17#16 = .sneImm 0xC#4 0x17#8 := by decide
theorem test_decode_seReg : decodeWord 0x5127#16 = .seReg 1#4 2#4 7#4 := by decide
theorem test_decode_ldImm : decodeWord 0x6A2B#16 = .ldImm 0xA#4 0x2B#8 := by decide
theorem test_decode_addImm : decodeWord 0x7AFF#16 = .addImm 0xA#4 0xFF#8 := by decide
theorem test_decode_movReg : decodeWord 0x8120#16 = .movReg 1#4 2#4 := by decide
theorem test_decode_orReg : decodeWord 0x8121#16 = .orReg 1#4 2#4 := by decide
theorem test_decode_andReg : decodeWord 0x8122#16 = .andReg 1#4 2#4 := by decide
theorem test_decode_xorReg : decodeWord 0x8123#16 = .xorReg 1#4 2#4 := by decide
theorem test_decode_addReg : decodeWord 0x8AB4#16 = .addReg 0xA#4 0xB#4 := by decide
theorem test_decode_subReg : decodeWord 0x8125#16 = .subReg 1#4 2#4 := by decide
theorem test_decode_shr : decodeWord 0x8126#16 = .shr 1#4 2#4 := by decide
theorem test_decode_subbReg : decodeWord 0x8127#16 = .subbReg 1#4 2#4 := by decide
theorem test_decode_shl : decodeWord 0x812E#16 = .shl 1#4 2#4 := by decide
theorem test_decode_sneReg : decodeWord 0x912F#16 = .sneReg 1#4 2#4 0xF#4 := by decide
theorem test_decode_ldI : decodeWord 0xA123#16 = .ldI 0x123#12 := by decide
theorem test_decode_jpV0 : decodeWord 0xBFFF#16 = .jpV0 0xFFF#12 := by decide
theorem test_decode_rnd : decodeWord 0xC3F0#16 = .rnd 3#4 0xF0#8 := by decide
theorem test_decode_drw : decodeWord 0xD12F#16 = .drw 1#4 2#4 0xF#4 := by decide
theorem test_decode_skp : decodeWord 0xE19E#16 = .skp 1#4 := by decide
theorem test_decode_sknp : decodeWord 0xE1A1#16 = .sknp 1#4 := by decide
theorem test_decode_ldVxDT : decodeWord 0xF107#16 = .ldVxDT 1#4 := by decide
theorem test_decode_ldVxK : decodeWord 0xF10A#16 = .ldVxK 1#4 := by decide
theorem test_decode_ldDTVx : decodeWord 0xF115#16 = .ldDTVx 1#4 := by decide
theorem test_decode_ldSTVx : decodeWord 0xF118#16 = .ldSTVx 1#4 := by decide
theorem test_decode_addI : decodeWord 0xF11E#16 = .addI 1#4 := by decide
theorem test_decode_ldF : decodeWord 0xF129#16 = .ldF 1#4 := by decide
theorem test_decode_ldB : decodeWord 0xF133#16 = .ldB 1#4 := by decide
theorem test_decode_storeRegs : decodeWord 0xF155#16 = .storeRegs 1#4 := by decide
theorem test_decode_loadRegs : decodeWord 0xF165#16 = .loadRegs 1#4 := by decide
theorem test_decode_noop0 : decodeWord 0x0123#16 = .noop0 1#4 0x23#8 := by decide
theorem test_decode_noop8 : decodeWord 0x812F#16 = .noop8 1#4 2#4 0xF#4 := by decide
theorem test_decode_noopE : decodeWord 0xE1A0#16 = .noopE 1#4 0xA0#8 := by decide
theorem test_decode_noopF : decodeWord 0xF108#16 = .noopF 1#4 0x08#8 := by decide
/-- The high byte lies at the lower address (R71). -/
theorem test_decode_bytes : decode [0x60#8, 0x0A#8, 0x61#8] = .ok (.ldImm 0#4 0x0A#8, [0x61#8]) := by decide
/-- One byte is no instruction (R70). -/
theorem test_decode_truncated : decode [0x60#8] = .error .truncated := by decide

/-! ### Control flow, spec/95_test_vectors.md section 3 -/

theorem test_jp : gives (exec (.jp 0x345#12) base) (fun t => t.pc == 0x345) = true := by decide
theorem test_call : gives (exec (.call 0x300#12) { base with SP := 0xFFC }) (fun t =>
    t.SP == 0xFFE && t.byte 0xFFE == 0x02#8 && t.byte 0xFFF == 0x02#8 && t.pc == 0x300)
    = true := by decide
theorem test_call_fault : faultsAs (exec (.call 0x300#12) { base with SP := 0xFFE }) { base with SP := 0xFFE }
    1 0x2300#16 0x1000 = true := by decide
theorem test_ret : gives (exec (.ret 0#4) { base with SP := 2, mem := [(2, 0x02#8), (3, 0x34#8)] }) (fun t =>
    t.pc == 0x234 && t.SP == 0 && t.byte 3 == 0x34#8) = true := by decide
theorem test_ret_underflow : faultsAs (exec (.ret 0#4) base) base 3 0x00EE#16 0x200 = true := by decide
theorem test_seImm : gives (exec (.seImm 3#4 0x42#8) (withRegs [(3#4, 0x42#8)])) (fun t => t.pc == 0x204) = true ∧
    gives (exec (.seImm 3#4 0x42#8) (withRegs [(3#4, 0x41#8)])) (fun t => t.pc == 0x202) = true := by decide
theorem test_sneImm : gives (exec (.sneImm 3#4 0x42#8) (withRegs [(3#4, 0x42#8)])) (fun t => t.pc == 0x202) = true ∧
    gives (exec (.sneImm 3#4 0x42#8) (withRegs [(3#4, 0x41#8)])) (fun t => t.pc == 0x204) = true := by decide
theorem test_seReg : gives (exec (.seReg 3#4 4#4 7#4) (withRegs [(3#4, 7#8), (4#4, 7#8)])) (fun t => t.pc == 0x204)
    = true ∧ gives (exec (.seReg 3#4 4#4 0#4) (withRegs [(3#4, 7#8), (4#4, 8#8)])) (fun t => t.pc == 0x202) = true := by
  decide
theorem test_sneReg : gives (exec (.sneReg 3#4 4#4 0#4) (withRegs [(3#4, 7#8), (4#4, 8#8)])) (fun t => t.pc == 0x204)
    = true ∧ gives (exec (.sneReg 3#4 4#4 0#4) (withRegs [(3#4, 7#8), (4#4, 7#8)])) (fun t => t.pc == 0x202) = true := by
  decide
theorem test_jpV0 : gives (exec (.jpV0 0xFFF#12) (withRegs [(0#4, 0xFF#8)])) (fun t => t.pc == 0x10FE) = true := by
  decide

/-! ### Register arithmetic, spec/95_test_vectors.md section 4 -/

theorem test_ldImm : gives (exec (.ldImm 0xA#4 0x2B#8) base) (fun t => t.reg 0xA#4 == 0x2B#8) = true := by decide
theorem test_addImm : gives (exec (.addImm 0xA#4 1#8) (withRegs [(0xA#4, 0xFF#8), (vf, 0x77#8)])) (fun t =>
    t.reg 0xA#4 == 0#8 && t.reg vf == 0x77#8) = true := by decide
theorem test_addImm_vf : gives (exec (.addImm vf 1#8) (withRegs [(vf, 0x7F#8)])) (fun t => t.reg vf == 0x80#8) = true := by
  decide
theorem test_movReg : gives (exec (.movReg 0#4 1#4) (withRegs [(0#4, 0x3C#8), (1#4, 0x0F#8), (vf, 0x77#8)])) (fun t =>
    t.reg 0#4 == 0x0F#8 && t.reg 1#4 == 0x0F#8 && t.reg vf == 0x77#8) = true := by decide
theorem test_orReg : gives (exec (.orReg 0#4 1#4) (withRegs [(0#4, 0x3C#8), (1#4, 0x0F#8), (vf, 0x77#8)])) (fun t =>
    t.reg 0#4 == 0x3F#8 && t.reg vf == 0x77#8) = true := by decide
theorem test_andReg : gives (exec (.andReg 0#4 1#4) (withRegs [(0#4, 0x3C#8), (1#4, 0x0F#8), (vf, 0x77#8)])) (fun t =>
    t.reg 0#4 == 0x0C#8 && t.reg vf == 0x77#8) = true := by decide
theorem test_xorReg : gives (exec (.xorReg 0#4 1#4) (withRegs [(0#4, 0x3C#8), (1#4, 0x0F#8), (vf, 0x77#8)])) (fun t =>
    t.reg 0#4 == 0x33#8 && t.reg vf == 0x77#8) = true := by decide
theorem test_addReg : gives (exec (.addReg 0#4 1#4) (withRegs [(0#4, 0xFF#8), (1#4, 0xFF#8)])) (fun t =>
    t.reg 0#4 == 0xFE#8 && t.reg vf == 1#8) = true ∧
    gives (exec (.addReg 0#4 1#4) (withRegs [(0#4, 0x80#8), (1#4, 0x7F#8), (vf, 9#8)])) (fun t =>
    t.reg 0#4 == 0xFF#8 && t.reg vf == 0#8) = true := by decide
/-- Table T-VF, `8F14`: both values of VF_LAST. -/
theorem test_addReg_vf : gives (exec (.addReg vf 1#4) (withRegs [(vf, 0xFF#8), (1#4, 1#8)])) (fun t => t.reg vf == 1#8)
    = true ∧ gives (exec (.addReg vf 1#4) (withRegsFirst [(vf, 0xFF#8), (1#4, 1#8)])) (fun t => t.reg vf == 0#8) = true := by
  decide
theorem test_subReg : gives (exec (.subReg 0#4 1#4) (withRegs [(0#4, 5#8), (1#4, 5#8), (vf, 9#8)])) (fun t =>
    t.reg 0#4 == 0#8 && t.reg vf == 0#8) = true ∧
    gives (exec (.subReg 0#4 1#4) (withRegs [(0#4, 0x80#8), (1#4, 0x7F#8)])) (fun t =>
    t.reg 0#4 == 1#8 && t.reg vf == 1#8) = true := by decide
/-- Table T-VF, `8F15`. -/
theorem test_subReg_vf : gives (exec (.subReg vf 1#4) (withRegs [(vf, 5#8), (1#4, 3#8)])) (fun t => t.reg vf == 1#8)
    = true ∧ gives (exec (.subReg vf 1#4) (withRegsFirst [(vf, 5#8), (1#4, 3#8)])) (fun t => t.reg vf == 2#8) = true := by
  decide
theorem test_shr : gives (exec (.shr 0#4 1#4) (withRegs [(0#4, 0xFF#8), (1#4, 0x55#8)])) (fun t =>
    t.reg 0#4 == 0x7F#8 && t.reg 1#4 == 0x55#8 && t.reg vf == 1#8) = true := by decide
/-- Table T-VF, `8F06`. -/
theorem test_shr_vf : gives (exec (.shr vf 0#4) (withRegs [(vf, 4#8)])) (fun t => t.reg vf == 0#8) = true ∧
    gives (exec (.shr vf 0#4) (withRegsFirst [(vf, 4#8)])) (fun t => t.reg vf == 2#8) = true := by decide
theorem test_subbReg : gives (exec (.subbReg 0#4 1#4) (withRegs [(0#4, 3#8), (1#4, 5#8)])) (fun t =>
    t.reg 0#4 == 2#8 && t.reg vf == 1#8) = true ∧
    gives (exec (.subbReg 0#4 1#4) (withRegs [(0#4, 1#8), (1#4, 0#8)])) (fun t =>
    t.reg 0#4 == 0xFF#8 && t.reg vf == 0#8) = true := by decide
theorem test_shl : gives (exec (.shl 0#4 1#4) (withRegs [(0#4, 0x81#8), (1#4, 0x55#8)])) (fun t =>
    t.reg 0#4 == 2#8 && t.reg 1#4 == 0x55#8 && t.reg vf == 1#8) = true := by decide
/-- Table T-VF, `8F0E`. -/
theorem test_shl_vf : gives (exec (.shl vf 0#4) (withRegs [(vf, 0x81#8)])) (fun t => t.reg vf == 1#8) = true ∧
    gives (exec (.shl vf 0#4) (withRegsFirst [(vf, 0x81#8)])) (fun t => t.reg vf == 2#8) = true := by decide
theorem test_rnd : gives (exec (.rnd 3#4 0xF0#8) { base with env := { Env.free with bytes := [0xAB#8] } }) (fun t =>
    t.reg 3#4 == 0xA0#8) = true := by decide

/-! ### Index and memory, spec/95_test_vectors.md sections 5 and 6 -/

theorem test_ldI : gives (exec (.ldI 0x123#12) base) (fun t => t.I == 0x123) = true := by decide
theorem test_addI : gives (exec (.addI 0#4) { withRegs [(0#4, 1#8), (vf, 7#8)] with I := 0xFFFE }) (fun t =>
    t.I == 0xFFFF && t.reg vf == 7#8) = true := by decide
theorem test_addI_overflow : faultsAs (exec (.addI 0#4) { withRegs [(0#4, 1#8)] with I := 0xFFFF })
    { withRegs [(0#4, 1#8)] with I := 0xFFFF } 4 0xF01E#16 0x10000 = true := by decide
theorem test_ldF : gives (exec (.ldF 0#4) (withRegs [(0#4, 0x0A#8)])) (fun t => t.I == 0x82) = true ∧
    gives (exec (.ldF 0#4) (withRegs [(0#4, 0xFF#8)])) (fun t => t.I == 0x54B) = true := by decide
theorem test_ldB : gives (exec (.ldB 3#4) { withRegs [(3#4, 128#8)] with I := 0xFFD }) (fun t =>
    Memory.readBlock t.params t.mem 0xFFD 3 == [1#8, 2#8, 8#8] && t.I == 0xFFD) = true := by decide
theorem test_ldB_fault : faultsAs (exec (.ldB 0#4) { base with I := 0xFFE }) { base with I := 0xFFE } 1 0xF033#16
    0x1000 = true := by decide
theorem test_storeRegs : gives (exec (.storeRegs 3#4)
    { withRegs [(0#4, 1#8), (1#4, 2#8), (2#4, 3#8), (3#4, 4#8), (4#4, 5#8)] with I := 0x300 }) (fun t =>
    Memory.readBlock t.params t.mem 0x300 5 == [1#8, 2#8, 3#8, 4#8, 0#8] && t.I == 0x300) = true := by decide
theorem test_storeRegs_fault : faultsAs (exec (.storeRegs 0#4) { base with I := 0x1005 }) { base with I := 0x1005 } 1
    0xF055#16 0x1005 = true := by decide
theorem test_loadRegs : gives (exec (.loadRegs 1#4) { base with I := 0x50 }) (fun t =>
    t.reg 0#4 == 0xF0#8 && t.reg 1#4 == 0x90#8 && t.reg 2#4 == 0#8 && t.I == 0x50) = true := by decide
theorem test_loadRegs_fault : faultsAs (exec (.loadRegs 0xF#4) { base with I := 0xFF1 }) { base with I := 0xFF1 } 1
    0xFF65#16 0x1000 = true := by decide

/-! ### Display, spec/95_test_vectors.md section 7 -/

theorem test_cls : gives (exec (.cls 0#4) { base with fb := blank.setPixel 3 4 true }) (fun t =>
    (pixelsOn t.fb).isEmpty && t.dirty) = true := by decide
/-- Glyph 0 at column 62, row 30: clipped at the right and at the bottom. -/
theorem test_drw_clips : gives (exec (.drw 0#4 1#4 5#4) { withRegs [(0#4, 62#8), (1#4, 30#8)] with I := 0x50 }) (fun t =>
    pixelsOn t.fb == [(30, 62), (30, 63), (31, 62)] && t.reg vf == 0#8 && t.dirty) = true := by decide
/-- A pixel that is on turns off, with a collision. -/
theorem test_drw_collides : gives (exec (.drw 0#4 1#4 1#4)
    { base with I := 0x50, fb := blank.setPixel 0 0 true }) (fun t =>
    pixelsOn t.fb == [(0, 1), (0, 2), (0, 3)] && t.reg vf == 1#8) = true := by decide

/-- FONT is a parameter (R6, D16): with another first glyph row, 80, DRW draws that row. -/
theorem test_drw_font : gives (exec (.drw 0#4 1#4 1#4)
    { base with I := 0x50, params := { Params.default with font := [0x80#8] } }) (fun t =>
    pixelsOn t.fb == [(0, 0)]) = true := by decide

/-! ### Timers and keyboard, spec/95_test_vectors.md section 8 -/

theorem test_skp : gives (exec (.skp 3#4) { withRegs [(3#4, 5#8)] with keys := oneKey 5 }) (fun t => t.pc == 0x204)
    = true ∧ gives (exec (.skp 3#4) (withRegs [(3#4, 5#8)])) (fun t => t.pc == 0x202) = true := by decide
theorem test_skp_fault : faultsAs (exec (.skp 3#4) (withRegs [(3#4, 0x10#8)])) (withRegs [(3#4, 0x10#8)]) 2 0xE39E#16 0x10
    = true := by decide
theorem test_sknp : gives (exec (.sknp 3#4) { withRegs [(3#4, 5#8)] with keys := oneKey 5 }) (fun t => t.pc == 0x202)
    = true ∧ gives (exec (.sknp 3#4) (withRegs [(3#4, 5#8)])) (fun t => t.pc == 0x204) = true := by decide
theorem test_sknp_fault : faultsAs (exec (.sknp 3#4) (withRegs [(3#4, 0xFF#8)])) (withRegs [(3#4, 0xFF#8)]) 2 0xE3A1#16 0xFF
    = true := by decide
theorem test_ldVxDT : gives (exec (.ldVxDT 3#4) { base with DT := 0x2A }) (fun t => t.reg 3#4 == 0x2A#8) = true := by decide
theorem test_ldDTVx : gives (exec (.ldDTVx 3#4) (withRegs [(3#4, 9#8)])) (fun t => t.DT == 9 && t.ST == 0) = true := by
  decide
theorem test_ldSTVx : gives (exec (.ldSTVx 3#4) (withRegs [(3#4, 3#8)])) (fun t =>
    t.ST == 3 && t.DT == 0 && t.trace.isEmpty) = true := by decide
theorem test_ldVxK : gives (exec (.ldVxK 2#4) { base with dirty := true }) (fun t =>
    decide (t.trace = [.frameOut blank, .keyWait 2#4]) && !t.dirty && t.run.isWaiting && t.pc == 0x202) = true := by
  decide
/-- T7: key 0B delivered at WaitingKey(2), DT = 05, ST = 07. -/
theorem test_keyReceipt : gives
    (step { base with run := .waitingKey 2#4, DT := 5, ST := 7, env := { Env.free with script := [[.deliverKey 11]] } })
    (fun t => t.reg 2#4 == 0x0B#8 && t.DT == 0 && t.ST == 0 && decide (t.run = .running) && t.pc == 0x202) = true := by
  decide
/-- Frame end with DT = FF, ST = FF. -/
theorem test_frameEnd : gives (step { base with phase := .frameTail, slot := 33, DT := 0xFF, ST := 0xFF }) (fun t =>
    t.DT == 0xFE && t.ST == 0xFE && decide (t.trace = [.sound]) && decide (t.phase = .frameHead)) = true := by decide
/-- Frame end with DT = 00, ST = 00: nothing. -/
theorem test_frameEnd_zero : gives (step { base with phase := .frameTail, slot := 33 }) (fun t =>
    t.DT == 0 && t.ST == 0 && t.trace.isEmpty) = true := by decide

/-! ### No-ops and steps, spec/40_execution_cycle.md and spec/95_test_vectors.md sections 9 to 11 -/

theorem test_noop0 : gives (exec (.noop0 0#4 0#8) base) (fun t =>
    decide (t.trace = [.unknownOpcode 0x200 0x0000#16]) && t.pc == 0x202) = true := by decide
theorem test_noop8 : gives (exec (.noop8 1#4 2#4 8#4) base) (fun t =>
    decide (t.trace = [.unknownOpcode 0x200 0x8128#16])) = true := by decide
theorem test_noopE : gives (exec (.noopE 1#4 0xFF#8) base) (fun t =>
    decide (t.trace = [.unknownOpcode 0x200 0xE1FF#16])) = true := by decide
theorem test_noopF : gives (exec (.noopF 1#4 0#8) base) (fun t =>
    decide (t.trace = [.unknownOpcode 0x200 0xF100#16])) = true := by decide
/-- Frame 1 of an empty program: Halted at its start (R102). -/
theorem test_halt : gives (step { State.reset with env := { Env.free with script := [[]] } }) (fun t =>
    decide (t.run = .halted) && t.pc == 0x200 && t.slot == 0 && t.trace.isEmpty) = true := by decide
/-- The drain comes before execute (R106): SKP sees the vector that was pending. -/
theorem test_drain : gives
    (step ({ withRegs [(3#4, 5#8)] with pc := 0x200, env := { Env.free with script := [[.offerKeys (oneKey 5) false]] } }.withFetchWord
      16 0xE39E)) (fun t => t.pc == 0x204 && t.slot == 1) = true := by decide
/-- Program P6's second slot: the store at 0x202 faults, mem[FFF] unchanged. -/
theorem test_step_fault : gives
    (step ({ State.reset with pc := 0x202, I := 0xFFF, env := { Env.free with script := [[]] } }.withFetchWord 16 0xF155))
    (fun t => decide (t.run = .faulted { kind := .memoryOutOfRange, addr := 0x202, word := some 0xF155#16, info := 0x1000 })
      && t.pc == 0x204 && t.byte 0xFFF == 0#8) = true := by decide

/-- IPF is a parameter (R114, D13): with 34 the slot after 33 used ones still runs, with 33 the frame's tail follows. -/
theorem test_ipf :
    gives (step { ready with slot := 33, params := { Params.default with ipf := 34 } }) (fun t => t.pc == 0x202 && t.slot == 34)
      = true ∧ gives (step { ready with slot := 33 }) (fun t => decide (t.phase = .frameTail) && t.pc == 0x200) = true := by
  decide

/-- I_WIDTH is a parameter (R6): in 12 bits a sum of 0x1000 overflows, in 17 bits a sum of 0x10000 does not. -/
theorem test_iWidth :
    gives (exec (.addI 0#4) { withRegs [(0#4, 1#8)] with I := 0xFFF, params := { Params.default with iWidth := 12 } })
      (fun t => decide (t.run = .faulted { kind := .indexOverflow, addr := 0x200, word := some 0xF01E#16, info := 0x1000 }))
      = true ∧
    gives (exec (.addI 0#4) { withRegs [(0#4, 1#8)] with I := 0xFFFF, params := { Params.default with iWidth := 17 } })
      (fun t => t.I == 0x10000) = true := by
  decide

/-! ### Witnesses: states and operands that meet all hypotheses of a statement, at the ends of their ranges -/

theorem witness_DecodeEncodeRoundTrip : WellFormed (.noop8 1#4 2#4 8#4) = true ∧ WellFormed (.cls 0xF#4) = true := by decide

theorem witness_DecoderFollowsOpcodeTable : ∃ r ∈ exactRows, 0x8126#16 &&& r.mask = r.pattern := by decide

theorem witness_StepRunsDecodedInstruction :
    ready.run = .running ∧ ready.phase = .inFrame ∧ ready.slot < ready.ipf ∧ ready.pc < ready.progEnd ∧
      ready.pc + 1 < base.params.memSize ∧
      decode [ready.byte ready.pc, ready.byte (ready.pc + 1)] =
        .ok (.ldImm 0xA#4 0x2B#8, []) := by
  decide

/-- The last slot of a frame, the last two bytes of memory, and the last byte of the program (its length odd). -/
theorem witness_StepRunsDecodedInstruction_last :
    let s : State := { base with pc := 0xFFE, slot := 32, len := 3583 }
    s.run = .running ∧ s.phase = .inFrame ∧ s.slot < s.ipf ∧ s.pc < s.progEnd ∧ s.pc + 1 < base.params.memSize ∧
      decode [s.byte s.pc, s.byte (s.pc + 1)] = .ok (.noop0 0#4 0#8, []) := by
  decide

theorem witness_FetchPastMemoryFaults :
    let s : State := { base with pc := 0xFFF, slot := 32, len := 3584 }
    s.run = .running ∧ s.phase = .inFrame ∧ s.slot < s.ipf ∧ s.pc < s.progEnd ∧ s.pc + 1 = s.params.memSize := by
  decide

theorem witness_EnvironmentTouchesOnlyPorts : base.env.script = [] :: [] := by decide

/-- pc one below END, and at END. -/
theorem witness_FrameStart :
    let s : State := { State.reset with len := 1 }
    let u : State := State.reset
    (s.run = .running ∧ s.phase = .frameHead ∧ s.pc < s.progEnd) ∧
      (u.run = .running ∧ u.phase = .frameHead ∧ u.progEnd ≤ u.pc) := by
  decide

theorem witness_EmptySlotAndSlotsUsed :
    let s : State := { base with slot := 32 }
    let u : State := { base with slot := 33 }
    (s.run = .running ∧ s.phase = .inFrame ∧ s.slot < s.ipf ∧ s.progEnd ≤ s.pc) ∧
      (u.run = .running ∧ u.phase = .inFrame ∧ u.slot = u.ipf) := by
  decide

theorem witness_FrameEndTicksAndFlushes :
    let s : State := { base with phase := .frameTail, slot := 33, dirty := true, DT := 1, ST := 1 }
    s.run = .running ∧ s.phase = .frameTail := by
  decide

/-- `base` has the registers of sane parameters. -/
theorem base_sized : base.Sized := by decide

theorem witness_KeyReceipt :
    let s : State := { base with run := .waitingKey 0xF#4 }
    let u : State := { base with run := .waitingKey 0#4, env := { Env.free with script := [[.deliverKey 15]] } }
    (s.Sized ∧ s.run = .waitingKey 0xF#4 ∧ s.phase = .inFrame ∧ s.envTurn.ports.deliveredKey = none) ∧
      (u.Sized ∧ u.run = .waitingKey 0#4 ∧ u.phase = .inFrame ∧ u.envTurn.ports.deliveredKey = some 15 ∧ 15 < 256) := by
  decide

theorem witness_TerminalStatesStay :
    ({ State.reset with run := .halted } : State).run = .halted ∧
      ∃ r, ({ base with run := .faulted { kind := .stackUnderflow, addr := 0x200, word := some 0x00EE#16, info := 0x200 } } :
        State).run = .faulted r :=
  ⟨rfl, _, rfl⟩

theorem witness_WaitWithoutSenderNeverEnds :
    let s : State := { base with run := .waitingKey 3#4, ports := { Ports.empty with keyEventUp := false } }
    s.run = .waitingKey 3#4 ∧ s.phase = .inFrame ∧ s.ports.keyEventUp = false := by
  decide

/-- `base` meets the invariant. -/
theorem base_inv : base.Inv :=
  ⟨by decide, by decide, by decide, by decide, by decide, by decide, by decide, by decide, by decide, nofun, nofun, nofun,
    by decide, by decide, by decide, by decide, by decide, by decide⟩

/-- A state whose one slot is left, with every bound of the invariant reached. -/
def full : State :=
  { base with
    len := 3584, SP := 0xFFE, slot := 33, phase := .frameTail
    ports := { Ports.empty with keyLevels := [oneKey 0], sound := 1, frames := [blank, blank] } }

theorem full_inv : full.Inv :=
  ⟨by decide, by decide, by decide, by decide, by decide, by decide, by decide, by decide, fun _ => rfl, nofun, nofun, nofun,
    by decide, by decide, by decide, by decide, by decide, by decide⟩

theorem witness_StepKeepsInv : full.Inv ∧ ∃ t, step full = .next t := ⟨full_inv, _, rfl⟩

theorem witness_InvStepAnswersNext : base.Inv := base_inv

theorem witness_OutputPortsNeverFeedBack :
    let s : State := { base with ports := { Ports.empty with sound := 1, frames := [blank], frameUp := false } }
    s.forgetOutput = base.forgetOutput ∧ s ≠ base := by
  decide

theorem witness_LoadPlacesProgramOrRefuses :
    (List.replicate 3584 (0x12#8 : Byte)).length ≤ Params.default.progMax ∧
      Params.default.progMax < (List.replicate 3585 (0x12#8 : Byte)).length := by
  simp only [List.length_replicate]
  decide

theorem witness_LoadPlacesProgramOrRefuses_inv :
    let r : ResetState := ResetState.zero Params.default
    Params.default.Sane ∧ r.V.length = Params.default.nreg ∧ r.I < 2 ^ Params.default.iWidth ∧ r.DT < 256 ∧ r.ST < 256 ∧
      r.keys.length = Params.default.nkeys ∧
      r.fb.shaped Params.default = true := by
  decide

/-- Each clause of the port rules: buffers empty and holding one value, connected and not, at the default capacities. -/
theorem witness_PortBufferRules :
    let c : Params := Params.default
    let p : Ports := { Ports.empty with keyLevels := [oneKey 5], keyEvents := [7], sound := 1, frames := [blank] }
    (Ports.empty.keyLevelUp = true ∧ (oneKey 5).length = c.nkeys ∧ Ports.empty.keyLevels.length < c.capKeyLevel) ∧
      (p.keyLevelUp = true ∧ c.capKeyLevel = 1 ∧ p.keyLevels = [oneKey 5]) ∧ ([] : KeyFlags).length ≠ c.nkeys ∧
      p.frames = blank :: [] ∧ Ports.empty.frames = [] ∧ p.sound = 0 + 1 ∧ Ports.empty.sound = 0 ∧
      Ports.empty.keyLevels = [] ∧ (p.keyEventUp = true ∧ p.keyEvents = 7 :: []) ∧ Ports.empty.keyEvents = [] := by
  decide

theorem witness_PortBufferRules_down :
    let p : Ports := { Ports.empty with keyLevelUp := false, keyEventUp := false, soundUp := false, frameUp := false }
    p.keyLevelUp = false ∧ p.keyEventUp = false ∧ p.soundUp = false ∧ p.frameUp = false := by
  decide

theorem base_safe : base.Safe := nofun

theorem witness_InstructionFaultsArePrecise :
    base.Safe ∧ ∃ t r, exec (.ret 0#4) base = .next t ∧ t.run = .faulted r :=
  ⟨base_safe, _, _, rfl, rfl⟩

/-- One witness for each line of the table of faults. -/
theorem witness_FaultsAreThoseOfTheTable_call :
    let s : State := { base with SP := 0xFFE }
    s.Safe ∧ s.SP % 2 = 0 ∧ s.SP + 1 < base.params.memSize ∧
      ∃ t r, exec (.call 0#12) s = .next t ∧ t.run = .faulted r :=
  ⟨nofun, by decide, by decide, _, _, rfl, rfl⟩

theorem witness_FaultsAreThoseOfTheTable_drw :
    let s : State := { base with I := 0xFFF }
    s.Safe ∧ s.SP % 2 = 0 ∧ s.SP + 1 < base.params.memSize ∧
      ∃ t r, exec (.drw 0#4 0#4 2#4) s = .next t ∧ t.run = .faulted r :=
  ⟨nofun, by decide, by decide, _, _, rfl, rfl⟩

theorem witness_FaultsAreThoseOfTheTable_ldB :
    let s : State := { base with I := 0xFFE }
    s.Safe ∧ s.SP % 2 = 0 ∧ s.SP + 1 < base.params.memSize ∧
      ∃ t r, exec (.ldB 0#4) s = .next t ∧ t.run = .faulted r :=
  ⟨nofun, by decide, by decide, _, _, rfl, rfl⟩

theorem witness_FaultsAreThoseOfTheTable_block :
    let s : State := { base with I := 0xFFF }
    s.Safe ∧ s.SP % 2 = 0 ∧ s.SP + 1 < base.params.memSize ∧
      ∃ t r, exec (.storeRegs 1#4) s = .next t ∧ t.run = .faulted r :=
  ⟨nofun, by decide, by decide, _, _, rfl, rfl⟩

theorem witness_FaultsAreThoseOfTheTable_key :
    let s : State := withRegs [(3#4, 16#8)]
    s.Safe ∧ s.SP % 2 = 0 ∧ s.SP + 1 < base.params.memSize ∧
      ∃ t r, exec (.sknp 3#4) s = .next t ∧ t.run = .faulted r :=
  ⟨nofun, by decide, by decide, _, _, rfl, rfl⟩

theorem witness_FaultsAreThoseOfTheTable_ret :
    base.Safe ∧ base.SP % 2 = 0 ∧ base.SP + 1 < base.params.memSize ∧
      ∃ t r, exec (.ret 0#4) base = .next t ∧ t.run = .faulted r :=
  ⟨nofun, by decide, by decide, _, _, rfl, rfl⟩

theorem witness_FaultsAreThoseOfTheTable_addI :
    let s : State := { withRegs [(0#4, 1#8)] with I := 0xFFFF }
    s.Safe ∧ s.SP % 2 = 0 ∧ s.SP + 1 < base.params.memSize ∧
      ∃ t r, exec (.addI 0#4) s = .next t ∧ t.run = .faulted r :=
  ⟨nofun, by decide, by decide, _, _, rfl, rfl⟩

theorem witness_OnlyCallBcdAndStoreWriteMemory :
    (∃ t, exec (.loadRegs 3#4) base = .next t) ∧ (∀ nnn, Instr.loadRegs 3#4 ≠ .call nnn) ∧
      (∀ x, Instr.loadRegs 3#4 ≠ .ldB x) ∧ (∀ x, Instr.loadRegs 3#4 ≠ .storeRegs x) :=
  ⟨⟨_, rfl⟩, nofun, nofun, nofun⟩

theorem witness_OnlyCallAndRetMoveSP :
    (∃ t, exec (.jp 0x200#12) base = .next t) ∧ (∀ nnn, Instr.jp 0x200#12 ≠ .call nnn) ∧ (∀ x, Instr.jp 0x200#12 ≠ .ret x) :=
  ⟨⟨_, rfl⟩, nofun, nofun⟩

theorem witness_IndexAndTimerWriters :
    (∃ t, exec (.storeRegs 0#4) base = .next t) ∧ (∀ nnn, Instr.storeRegs 0#4 ≠ .ldI nnn) ∧
      (∀ x, Instr.storeRegs 0#4 ≠ .addI x) ∧ (∀ x, Instr.storeRegs 0#4 ≠ .ldF x) ∧ (∀ x, Instr.storeRegs 0#4 ≠ .ldDTVx x) ∧
      (∀ x, Instr.storeRegs 0#4 ≠ .ldSTVx x) :=
  ⟨⟨_, rfl⟩, nofun, nofun, nofun, nofun, nofun⟩

theorem witness_OnlyClsAndDrwWriteFramebuffer :
    (∃ t, exec (.addReg 0#4 1#4) base = .next t) ∧ (∀ x, Instr.addReg 0#4 1#4 ≠ .cls x) ∧
      (∀ x y n, Instr.addReg 0#4 1#4 ≠ .drw x y n) ∧ (∀ x, Instr.addReg 0#4 1#4 ≠ .ldVxK x) :=
  ⟨⟨_, rfl⟩, nofun, nofun, nofun⟩

/-- ADD V0, kk is none of the instructions named, and answers a next state. -/
theorem witness_OnlySixOperationsWriteVFAsFlag :
    let i : Instr := .addImm 0#4 0xFF#8
    (∃ t, exec i base = .next t) ∧ (∀ x y, i ≠ .addReg x y) ∧ (∀ x y, i ≠ .subReg x y) ∧ (∀ x y, i ≠ .shr x y) ∧
      (∀ x y, i ≠ .subbReg x y) ∧ (∀ x y, i ≠ .shl x y) ∧ (∀ x y n, i ≠ .drw x y n) ∧ (∀ kk, i ≠ .ldImm vf kk) ∧
      (∀ kk, i ≠ .addImm vf kk) ∧ (∀ y, i ≠ .movReg vf y) ∧ (∀ y, i ≠ .orReg vf y) ∧ (∀ y, i ≠ .andReg vf y) ∧
      (∀ y, i ≠ .xorReg vf y) ∧ (∀ kk, i ≠ .rnd vf kk) ∧ i ≠ .ldVxDT vf ∧ i ≠ .loadRegs vf :=
  ⟨⟨_, rfl⟩, nofun, nofun, nofun, nofun, nofun, nofun, nofun,
    fun _ h => absurd (Instr.addImm.inj h).1 (by decide),
    nofun, nofun, nofun, nofun, nofun, nofun, nofun⟩

theorem witness_NoInstructionWritesKeysOrCycleState : ∃ t, exec (.skp 0#4) base = .next t := ⟨_, rfl⟩

/-- The lowest and the highest stack slots of an even SP, and the lowest SP of all. -/
theorem witness_RetPopsReturnAddress :
    base.params.Sane ∧ ({ base with SP := 1 } : State).SP ≠ 0 ∧ ({ base with SP := 2 } : State).SP ≠ 0 ∧ ({ base with SP := 2 } : State).SP + 1 < base.params.memSize ∧
      ({ base with SP := 0xFFE } : State).SP ≠ 0 ∧
      ({ base with SP := 0xFFE } : State).SP + 1 < base.params.memSize := by
  decide

theorem witness_RetOnEmptyStackFaults : base.SP = 0 := by decide

theorem witness_JumpsSetPc : base.params.Sane := base_sized.1

theorem witness_CallPushesReturnAddress :
    base.Sized ∧ base.memWf = true ∧ base.SP + 3 < base.params.memSize ∧
      ({ base with SP := 0xFFC } : State).SP + 3 < base.params.memSize := by
  decide

theorem witness_CallPastMemoryFaults : base.params.memSize ≤ ({ base with SP := 0xFFE } : State).SP + 3 := by
  decide

/-- Three calls from an empty stack, and one from the highest slot that has room. -/
theorem witness_CallReturnRoundTrip :
    base.params.Sane ∧ 0x202 < 0x10000 ∧ 0xFFFF < 0x10000 ∧ base.memWf = true ∧
      base.SP + 2 * ([(0x208, 0x20A#12), (0x20C, 0x20E#12)].length + 1) + 1 < base.params.memSize ∧
      ({ base with SP := 0xFFC } : State).SP + 2 * (([] : List (Nat × Addr12)).length + 1) + 1 <
        0x1000 := by
  decide

theorem witness_LoadImmediate : base.Sized := base_sized

theorem witness_AddImmediateWraps : (withRegs [(0xA#4, 0xFF#8)]).Sized := by decide

theorem witness_MoveAndBitwise : base.Sized := base_sized

/-- Both values of VF_LAST. -/
theorem witness_AddRegisterSetsCarry : (withRegs [(vf, 0xFF#8)]).Sized ∧ (withRegsFirst [(vf, 0xFF#8)]).Sized := by decide

theorem witness_SubtractsSetNoBorrow : (withRegs [(vf, 5#8)]).Sized ∧ (withRegsFirst [(vf, 5#8)]).Sized := by decide

theorem witness_ShiftsSetShiftedOutBit : (withRegs [(vf, 4#8)]).Sized ∧ (withRegsFirst [(vf, 4#8)]).Sized := by decide

theorem witness_RandomByteMasked : base.Sized ∧
    ({ base with env := { Env.free with bytes := [0xAB#8] } } : State).env.bytes = 0xAB#8 :: [] := by
  decide

theorem witness_LoadIndexAndGlyph : base.params.Sane := base_sized.1

/-- The premise also holds with wider registers and a 17th one. -/
theorem witness_Sized_wider :
    ({ base with
        V := List.replicate 17 0#8
        params := { Params.default with nreg := 17, iWidth := 20, pcWidth := 17, spWidth := 24, timerWidth := 10 } } :
      State).Sized := by
  decide

theorem witness_TimerMoves : ({ base with DT := 0xFF, ST := 0xFF } : State).Sized := by decide

/-- Both clauses at their common boundary: a sum of 0xFFFF, and of 0x10000. -/
theorem witness_AddIndexOrOverflow :
    ({ withRegs [(0#4, 1#8)] with I := 0xFFFE } : State).I + (withRegs [(0#4, 1#8)]).regNat 0#4 < 2 ^ base.params.iWidth ∧
      2 ^ base.params.iWidth ≤ ({ withRegs [(0#4, 1#8)] with I := 0xFFFF } : State).I + (withRegs [(0#4, 1#8)]).regNat 0#4 := by
  decide

theorem witness_BcdStoresDigits :
    base.memWf = true ∧ ({ base with I := 0xFFD } : State).I + 2 < base.params.memSize := by
  decide

theorem witness_StoreBlockCopiesRegisters :
    base.memWf = true ∧ ({ base with I := 0xFF0 } : State).I + (0xF#4 : Reg).toNat < base.params.memSize ∧
      (0xF#4 : Reg).toNat ≤ (0xF#4 : Reg).toNat := by
  decide

theorem witness_LoadBlockCopiesMemory :
    ({ base with I := 0xFF0 } : State).Sized ∧
      ({ base with I := 0xFF0 } : State).I + (0xF#4 : Reg).toNat < base.params.memSize ∧ (0#4 : Reg).toNat ≤ (0xF#4 : Reg).toNat := by
  decide

/-- Each clause one past its last address that fits, and with I itself out of range. -/
theorem witness_IndexedAccessPastMemoryFaults :
    base.params.memSize < ({ base with I := 0xFFE } : State).I + 3 ∧
      base.params.memSize < ({ base with I := 0xFF1 } : State).I + ((0xF#4 : Reg).toNat + 1) ∧
      base.params.memSize < ({ base with I := 0x1005 } : State).I + ((0#4 : Reg).toNat + 1) ∧
      0 < (1#4 : Nibble).toNat ∧ base.params.memSize < ({ base with I := 0x1000 } : State).I + (1#4 : Nibble).toNat := by
  decide

/-- n = 0 with I out of range, the last sprite that fits, and the premises of the two flag clauses. -/
theorem witness_DrawIsXorOfSprite :
    base.Sized ∧ ({ base with I := 0xFFFF } : State).Sized ∧ base.fb.shaped base.params = true ∧
    ((0#4 : Nibble) = 0#4 ∨ ({ base with I := 0xFFFF } : State).I + (0#4 : Nibble).toNat ≤ base.params.memSize) ∧
      ({ base with I := 0xFFC } : State).I + (4#4 : Nibble).toNat ≤ base.params.memSize ∧
      (let s : State := { base with I := 0x50, fb := blank.setPixel 0 0 true }
       s.spriteBit 0#4 0#4 1#4 0 0 = true ∧ s.fb.pixel 0 0 = true) := by
  decide

theorem witness_DrawIsXorOfSprite_noCollision :
    ∀ R C, R < 32 → C < 64 → base.spriteBit 0#4 0#4 1#4 R C = true → base.fb.pixel R C = false :=
  fun _ _ _ _ _ => pixel_blank _ _ _

theorem witness_DrawTwiceRestoresScreen :
    base.Sized ∧ (0#4 : Reg) ≠ vf ∧ (0xE#4 : Reg) ≠ vf ∧ base.fb.shaped base.params = true ∧
      ({ base with I := 0x50 } : State).I + (5#4 : Nibble).toNat ≤ base.params.memSize ∧
      ({ base with I := 0x50 } : State).spriteBit 0#4 0xE#4 5#4 0 0 = true := by
  decide

theorem witness_KeySkips : ((withRegs [(3#4, 15#8)]).reg 3#4).toNat < base.params.nkeys := by decide

theorem witness_KeyIndexAboveFifteenFaults :
    (withRegs [(3#4, 16#8)]).params.nkeys ≤ ((withRegs [(3#4, 16#8)]).reg 3#4).toNat := by
  decide

theorem witness_NoOpsOnlyLog :
    (Instr.noop0 0#4 0#8).isNoOp = true ∧ (Instr.noop8 0#4 0#4 0xF#4).isNoOp = true ∧
      (Instr.noopE 0#4 0#8).isNoOp = true ∧ (Instr.noopF 0xF#4 0xFF#8).isNoOp = true := by
  decide

end Sys2Proof.Tests
end

section
/-! The parameters at reset (spec/00_scope.md R6): the facts about them that are more than one value of the table. -/

namespace Sys2Proof.Machine

@[simp] theorem reset_params : State.reset.params = Params.default := rfl

/-- Sixteen glyphs of GLYPH_BYTES bytes (spec/20_memory.md R58). -/
theorem default_font_length : Params.default.font.length = 80 := rfl

/-- Decision D13: 2000 / 60 rounded down (spec/40_execution_cycle.md R114). -/
theorem default_ipf_eq_floorBudget : Params.default.ipf = Params.default.floorBudget := by decide

/-- At the defaults every rule of the spec keeps its meaning. -/
theorem default_sane : Params.default.Sane := by decide

/-- Settles O59: each value of R6's table by computation, the font's length, IPF's origin and sanity by their own lemmas. -/
theorem parametersAtReset : Obligations.ParametersAtReset := by
  unfold Obligations.ParametersAtReset
  rw [reset_params]
  exact ⟨rfl, rfl, rfl, rfl, rfl, rfl, rfl, rfl, rfl, rfl, rfl, rfl, default_font_length, rfl, rfl, rfl, rfl, rfl,
    default_ipf_eq_floorBudget, rfl, rfl, rfl, rfl, rfl, default_sane⟩

end Sys2Proof.Machine
end

section
/-!
What an instruction can do to the state, said once: every instruction answers a next state, and that state is one of a few
updates of the state it executes in (spec/40_execution_cycle.md R107). The rules about who writes what (spec/10_state.md) and
the invariant are read off it, shape by shape.
-/

namespace Sys2Proof.Machine

/-- The register that a result goes to, for the instructions that write it and no flag (spec/42_register_arith.md R152 to R157,
spec/45_timer_keyboard.md R232). RND, which draws a byte too, is a shape of its own. -/
def resultReg : Instr → Option Reg
  | .ldImm x _ | .addImm x _ | .movReg x _ | .orReg x _ | .andReg x _ | .xorReg x _ | .ldVxDT x => some x
  | _ => none

/-- The register that a result goes to, for the operations of class 8 that write VF too (spec/42_register_arith.md R151). -/
def flaggedReg : Instr → Option Reg
  | .addReg x _ | .subReg x _ | .shr x _ | .subbReg x _ | .shl x _ => some x
  | _ => none

theorem resultReg_eq_some {i : Instr} {x : Reg} (h : resultReg i = some x) :
    (∃ kk, i = .ldImm x kk) ∨ (∃ kk, i = .addImm x kk) ∨ (∃ y, i = .movReg x y) ∨ (∃ y, i = .orReg x y) ∨
      (∃ y, i = .andReg x y) ∨ (∃ y, i = .xorReg x y) ∨ i = .ldVxDT x := by
  cases i <;> simp_all [resultReg]

theorem flaggedReg_eq_some {i : Instr} {x : Reg} (h : flaggedReg i = some x) :
    (∃ y, i = .addReg x y) ∨ (∃ y, i = .subReg x y) ∨ (∃ y, i = .shr x y) ∨ (∃ y, i = .subbReg x y) ∨
      ∃ y, i = .shl x y := by
  cases i <;> simp_all [flaggedReg]

/-- `Effect s i t`: instruction `i`, executed in `s`, may leave `t`. One constructor a shape of update, with the
instructions that have it where a rule names the writers, and with what their checks have established. -/
inductive Effect (s : State) : Instr → State → Prop
  | fault (i : Instr) (r : FaultRecord) : Effect s i (s.enterFault r)
  | result {i : Instr} {x : Reg} (v : Byte) (dest : resultReg i = some x) : Effect s i (s.setReg x v)
  | flagged {i : Instr} {x : Reg} (r : Byte) (f : Bool) (dest : flaggedReg i = some x) : Effect s i (s.setRF x r f)
  | random (x : Reg) (kk v : Byte) : Effect s (.rnd x kk) (s.afterDraw.setReg x v)
  | loaded (x : Reg) : Effect s (.loadRegs x) (s.loadRegsFrom s.I (x.toNat + 1))
  | jump {i : Instr} {v : Nat} (fits : v < 0x10000) : Effect s i (s.setPc v)
  | skip (i : Instr) (c : Bool) : Effect s i (s.skipIf c)
  | call (nnn : Addr12) (fits : s.pushAddr + 2 ≤ s.params.memSize) :
      Effect s (.call nnn) (((s.storePair s.pushAddr (BitVec.ofNat 16 s.pc)).setSP s.pushAddr).setPc (zextAddr nnn))
  | ret (x : Nibble) : Effect s (.ret x) ((s.setPc (s.pair s.SP).toNat).setSP (s.SP - 2))
  | index {i : Instr} (v : Nat) (writer : (∃ nnn, i = .ldI nnn) ∨ (∃ x, i = .addI x) ∨ ∃ x, i = .ldF x) :
      Effect s i (s.setI v)
  | delay (x : Reg) : Effect s (.ldDTVx x) (s.setDT (s.regNat x))
  | sound (x : Reg) : Effect s (.ldSTVx x) (s.setST (s.regNat x))
  | stored (i : Instr) {vs : List Byte} (fits : s.I + vs.length ≤ s.params.memSize) : Effect s i (s.storeBlock s.I vs)
  | clear (x : Nibble) : Effect s (.cls x) { s with fb := Grid.blank s.params, dirty := true }
  | draw (x y : Reg) (n : Nibble) : Effect s (.drw x y n) (s.putCanvas (s.drawn x y n))
  | wait (x : Reg) : Effect s (.ldVxK x) { s.flush.emit (.keyWait x) with run := .waitingKey x }
  | noOp (i : Instr) (a : Nat) (w : Word) : Effect s i (s.emit (.unknownOpcode a w))

/-- A range-checked operation has its own effect where the range fits, and faults elsewhere. -/
theorem withRange_effect {s t : State} {i : Instr} {base count : Nat}
    (h : base + count ≤ s.params.memSize → Effect s i t) :
    ∃ u, withRange base count i s (.next t) = .next u ∧ Effect s i u := by
  rcases withRange_cases base count i s (.next t) with ⟨hfits, heq⟩ | ⟨-, heq⟩
  · exact ⟨t, heq, h hfits⟩
  · exact ⟨_, heq, .fault i _⟩

/-- A key-checked operation has its own effect where the key exists, and faults elsewhere. -/
theorem withKeyIndex_effect {s t : State} {i : Instr} (k : Byte) (h : Effect s i t) :
    ∃ u, withKeyIndex k i s (.next t) = .next u ∧ Effect s i u := by
  by_cases hk : k.toNat < s.params.nkeys
  · exact ⟨t, withKeyIndex_in hk i _, h⟩
  · exact ⟨_, withKeyIndex_above (Nat.le_of_not_lt hk) i _, .fault i _⟩

theorem execRet_effect (x : Nibble) (s : State) : ∃ t, execRet x s = .next t ∧ Effect s (.ret x) t := by
  unfold execRet
  split
  · exact ⟨_, rfl, .fault _ _⟩
  · exact withRange_effect fun _ => .ret x

theorem execDrw_effect (x y : Reg) (n : Nibble) (s : State) :
    ∃ t, execDrw x y n s = .next t ∧ Effect s (.drw x y n) t := by
  unfold execDrw
  split
  · exact ⟨_, rfl, .draw x y n⟩
  · exact withRange_effect fun _ => .draw x y n

theorem execAddI_effect (x : Reg) (s : State) : ∃ t, execAddI x s = .next t ∧ Effect s (.addI x) t := by
  unfold execAddI
  split
  · exact ⟨_, rfl, .fault _ _⟩
  · exact ⟨_, rfl, .index _ (.inr (.inl ⟨x, rfl⟩))⟩

/-- The exact sum of JP V0 fits a word (spec/41_control_flow.md R137). -/
theorem execJpV0_target_lt (nnn : Addr12) (s : State) : nnn.toNat + s.regNat 0#4 < 0x10000 := by
  have h1 := nnn.isLt
  have h2 : s.regNat 0#4 < 256 := (s.reg 0#4).isLt
  omega

theorem zextAddr_lt_word (nnn : Addr12) : zextAddr nnn < 0x10000 := (zextAddr_lt nnn).trans (by decide)

/-- Every instruction answers a next state, which is one of its effects. -/
theorem exec_effect (i : Instr) (s : State) : ∃ t, exec i s = .next t ∧ Effect s i t := by
  cases i with
  | cls x => exact ⟨_, rfl, .clear x⟩
  | ret x => exact execRet_effect x s
  | jp nnn => exact ⟨_, rfl, .jump (zextAddr_lt_word nnn)⟩
  | call nnn => exact withRange_effect fun hfits => .call nnn hfits
  | jpV0 nnn => exact ⟨_, rfl, .jump (execJpV0_target_lt nnn s)⟩
  | seImm | sneImm | seReg | sneReg => exact ⟨_, rfl, .skip _ _⟩
  | ldImm | addImm | movReg | orReg | andReg | xorReg | ldVxDT => exact ⟨_, rfl, .result _ rfl⟩
  | addReg | subReg | shr | subbReg | shl => exact ⟨_, rfl, .flagged _ _ rfl⟩
  | rnd x kk => exact ⟨_, rfl, .random x kk _⟩
  | drw x y n => exact execDrw_effect x y n s
  | skp | sknp => exact withKeyIndex_effect _ (.skip _ _)
  | ldVxK x => exact ⟨_, rfl, .wait x⟩
  | ldDTVx x => exact ⟨_, rfl, .delay x⟩
  | ldSTVx x => exact ⟨_, rfl, .sound x⟩
  | ldI nnn => exact ⟨_, rfl, .index _ (.inl ⟨nnn, rfl⟩)⟩
  | addI x => exact execAddI_effect x s
  | ldF x => exact ⟨_, rfl, .index _ (.inr (.inr ⟨x, rfl⟩))⟩
  | ldB x => exact withRange_effect fun hfits => .stored _ hfits
  | storeRegs x => exact withRange_effect fun hfits => .stored _ (by rw [regsUpTo_length]; exact hfits)
  | loadRegs x => exact withRange_effect fun _ => .loaded x
  | noop0 | noop8 | noopE | noopF => exact ⟨_, rfl, .noOp _ _ _⟩

/-- The inversion of `exec`: the state it answers is one of the instruction's effects. -/
theorem effect_of_exec {i : Instr} {s t : State} (h : exec i s = .next t) : Effect s i t := by
  obtain ⟨u, hu, heffect⟩ := exec_effect i s
  rw [h] at hu
  cases hu
  exact heffect

/-- No effect touches keys, program length, slot, phase and parameters (spec/10_state.md R28, R31, R33). -/
theorem Effect.cycleKept {s t : State} {i : Instr} (h : Effect s i t) : CycleKept s t := by
  cases h <;> simp [CycleKept]

/-- Settles O30: no shape of update touches these fields. -/
theorem noInstructionWritesKeysOrCycleState : Obligations.NoInstructionWritesKeysOrCycleState :=
  fun _ _ _ h => (effect_of_exec h).cycleKept

/-- Settles O26: the stack pointer moves in the two shapes of CALL and RET alone. -/
theorem onlyCallAndRetMoveSP : Obligations.OnlyCallAndRetMoveSP := by
  intro i s t h hcall hret
  cases effect_of_exec h with
  | call nnn => exact absurd rfl (hcall nnn)
  | ret x => exact absurd rfl (hret x)
  | _ => simp

theorem Effect.index_kept {s t : State} {i : Instr} (h : Effect s i t) (hldI : ∀ nnn, i ≠ .ldI nnn)
    (haddI : ∀ x, i ≠ .addI x) (hldF : ∀ x, i ≠ .ldF x) : t.I = s.I := by
  cases h with
  | index v writer =>
    rcases writer with ⟨nnn, rfl⟩ | ⟨x, rfl⟩ | ⟨x, rfl⟩
    · exact absurd rfl (hldI nnn)
    · exact absurd rfl (haddI x)
    · exact absurd rfl (hldF x)
  | _ => simp

theorem Effect.delay_kept {s t : State} {i : Instr} (h : Effect s i t) (hld : ∀ x, i ≠ .ldDTVx x) : t.DT = s.DT := by
  cases h with
  | delay x => exact absurd rfl (hld x)
  | _ => simp

theorem Effect.sound_kept {s t : State} {i : Instr} (h : Effect s i t) (hld : ∀ x, i ≠ .ldSTVx x) : t.ST = s.ST := by
  cases h with
  | sound x => exact absurd rfl (hld x)
  | _ => simp

/-- Settles O27: I, DT and ST each have a shape of update of their own, with the writers the spec names. -/
theorem indexAndTimerWriters : Obligations.IndexAndTimerWriters := fun _ _ _ h =>
  have heffect := effect_of_exec h
  ⟨heffect.index_kept, heffect.delay_kept, heffect.sound_kept⟩

/-- Settles O28: the grid changes in the shapes of CLS and DRW alone, dirty in these and in the flush of Fx0A. -/
theorem onlyClsAndDrwWriteFramebuffer : Obligations.OnlyClsAndDrwWriteFramebuffer := by
  intro i s t h hcls hdrw
  cases effect_of_exec h with
  | clear x => exact absurd rfl (hcls x)
  | draw x y n => exact absurd rfl (hdrw x y n)
  | wait x => exact ⟨by simp, fun hwait => absurd rfl (hwait x)⟩
  | _ => simp

/-- A block load up to another register than VF ends below it (spec/43_memory_index.md R186). -/
theorem reg_vf_loadRegsFrom {s : State} {x : Reg} (hx : x ≠ vf) (base : Nat) :
    (s.loadRegsFrom base (x.toNat + 1)).reg vf = s.reg vf := by
  have hlast : x.toNat ≠ vf.toNat := fun e => hx (BitVec.eq_of_toNat_eq e)
  have hvf : vf.toNat = 15 := rfl
  have hlt := x.isLt
  simp only [State.reg, regAt_loadRegsFrom]
  exact if_neg (by omega)

/-- Settles O29: a shape that writes registers writes its destination, a block up to its last register, or the flag of one of
the six operations. -/
theorem onlySixOperationsWriteVFAsFlag : Obligations.OnlySixOperationsWriteVFAsFlag := by
  intro i s t h hadd hsub hshr hsubb hshl hdrw hldImm haddImm hmov hor hand hxor hrnd hldDT hload
  cases effect_of_exec h with
  | result v dest =>
    refine reg_setReg_other s v ?_
    rintro rfl
    rcases resultReg_eq_some dest with ⟨kk, e⟩ | ⟨kk, e⟩ | ⟨y, e⟩ | ⟨y, e⟩ | ⟨y, e⟩ | ⟨y, e⟩ | e
    · exact hldImm kk e
    · exact haddImm kk e
    · exact hmov y e
    · exact hor y e
    · exact hand y e
    · exact hxor y e
    · exact hldDT e
  | flagged r f dest =>
    rcases flaggedReg_eq_some dest with ⟨y, e⟩ | ⟨y, e⟩ | ⟨y, e⟩ | ⟨y, e⟩ | ⟨y, e⟩
    · exact absurd e (hadd _ y)
    · exact absurd e (hsub _ y)
    · exact absurd e (hshr _ y)
    · exact absurd e (hsubb _ y)
    · exact absurd e (hshl _ y)
  | random x kk v => exact reg_setReg_other s.afterDraw v (by rintro rfl; exact hrnd kk rfl)
  | loaded x => exact reg_vf_loadRegsFrom (fun e => hload (e ▸ rfl)) s.I
  | draw x y n => exact absurd rfl (hdrw x y n)
  | _ => exact reg_of_V (by simp) vf

end Sys2Proof.Machine
end

section
/-!
The invariant in its three parts: what the state holds, where the run stands, what the ports hold. Reset meets it, and every
step keeps it: an instruction by its effects, the other rows of spec/40_execution_cycle.md R115 one by one.
-/

namespace Sys2Proof.Machine

/-! ### The parts of the invariant -/

/-- The part about registers, memory, program, stack, keys and framebuffer (spec/10_state.md R20 to R31). -/
structure State.DataOk (s : State) : Prop where
  sized : s.Sized
  memory : s.memWf = true
  program : s.len ≤ s.params.progMax
  stackEven : s.SP % 2 = 0
  stackFits : s.SP + 1 < s.params.memSize
  keysShape : s.keys.length = s.params.nkeys
  fbShape : s.fb.shaped s.params = true

/-- The part about slots, phases and run states (spec/10_state.md R33; spec/40_execution_cycle.md R111, R115). -/
structure State.ControlOk (s : State) : Prop where
  slots : s.slot ≤ s.ipf
  tailFull : s.phase = .frameTail → s.slot = s.ipf
  waiting : ∀ x, s.run = .waitingKey x → s.phase = .inFrame
  halted : s.run = .halted → s.phase = .frameHead ∧ s.progEnd ≤ s.pc
  faulted : ∀ r, s.run = .faulted r → s.phase = .inFrame

/-- The invariant is its three parts; between steps the key-event port has no place beyond its capacity. -/
theorem inv_iff (s : State) : s.Inv ↔ s.DataOk ∧ s.ControlOk ∧ s.ports.Within s.params 0 := by
  constructor
  · intro h
    exact ⟨{ h with }, { h with },
      ⟨h.soundCap, h.frameCap, h.keyLevelCap, h.keyLevelShape, h.keyEventCap, fun _ => h.keyEventCap, h.keyEventRange⟩⟩
  · rintro ⟨hdata, hcontrol, hports⟩
    exact { hdata, hcontrol with
      keyLevelCap := hports.levels, keyLevelShape := hports.shapes, keyEventCap := hports.events
      keyEventRange := hports.range, soundCap := hports.sound, frameCap := hports.frames }

/-- Within the slots only their number and a halt are left to check. -/
theorem controlOk_inFrame {s : State} (hphase : s.phase = .inFrame) (hslot : s.slot ≤ s.ipf) (hrun : s.run ≠ .halted) :
    s.ControlOk where
  slots := hslot
  tailFull h := by simp [hphase] at h
  waiting _ _ := hphase
  halted h := absurd h hrun
  faulted _ _ := hphase

/-- While the block runs only the slots are left to check. -/
theorem controlOk_running {s : State} (hrun : s.run = .running) (hslot : s.slot ≤ s.ipf)
    (htail : s.phase = .frameTail → s.slot = s.ipf) : s.ControlOk where
  slots := hslot
  tailFull := htail
  waiting _ h := by simp [hrun] at h
  halted h := by simp [hrun] at h
  faulted _ h := by simp [hrun] at h

/-! ### Ports -/

theorem offer_keyEventUp (c : Params) (p : Ports) (e : Event) : (p.offer c e).keyEventUp = p.keyEventUp := by
  cases e <;> rfl

theorem offer_keeps_within {c : Params} {room : Nat} {p : Ports} (h : p.Within c room) (e : Event) :
    (p.offer c e).Within c room := by
  obtain ⟨hsound, hframes, hevents, hlevels⟩ := offer_keeps_caps c p e
  exact ⟨hsound h.sound, hframes h.frames, hlevels ▸ h.levels, hlevels ▸ h.shapes, hevents ▸ h.events,
    fun hdown => hevents ▸ h.eventsDown (offer_keyEventUp c p e ▸ hdown), hevents ▸ h.range⟩

theorem flush_keeps_within {s : State} {room : Nat} (h : s.ports.Within s.params room) :
    s.flush.ports.Within s.params room := by
  unfold State.flush
  split
  · exact offer_keeps_within h (.frameOut s.fb)
  · exact h

theorem tickST_keeps_within {s : State} {room : Nat} (h : s.ports.Within s.params room) :
    s.tickST.ports.Within s.params room := by
  unfold State.tickST
  split
  · exact h
  · exact offer_keeps_within h .sound

theorem frameFinish_keeps_within {s : State} {room : Nat} (h : s.ports.Within s.params room) :
    s.frameFinish.ports.Within s.params room := by
  have hDT : s.tickDT.ports.Within s.tickDT.params room := by simpa using h
  have hST : s.tickDT.tickST.ports.Within s.tickDT.tickST.params room := by
    simpa using tickST_keeps_within hDT
  simpa [State.frameFinish] using flush_keeps_within hST

/-- The drain takes the oldest vector away. -/
theorem drain_keeps_within {s : State} {room : Nat} (h : s.ports.Within s.params room) :
    s.drain.ports.Within s.params room :=
  { h with
    levels := (List.tail_sublist _).length_le.trans h.levels
    shapes := fun flags hmem => h.shapes flags (List.mem_of_mem_tail hmem) }

/-- A block that finds no key has not used the place that waiting gives one (log entry 26). -/
theorem within_of_no_key {c : Params} {room : Nat} {p : Ports} (h : p.Within c room) (hkey : p.deliveredKey = none) :
    p.Within c 0 := by
  refine { h with events := ?_ }
  cases hup : p.keyEventUp with
  | false => exact h.eventsDown hup
  | true =>
    have hnil : p.keyEvents = [] := by simpa [Ports.deliveredKey, hup] using hkey
    simp [hnil]

/-- The receipt takes the oldest key away, and with it the place that waiting gave. -/
theorem within_of_receipt {c : Params} {p : Ports} (h : p.Within c 1) :
    ({ p with keyEvents := p.keyEvents.tail } : Ports).Within c 0 := by
  have hevents := h.events
  have htail : p.keyEvents.tail.length ≤ c.capKeyEvent := by rw [List.length_tail]; omega
  exact { h with
    events := htail
    eventsDown := fun _ => htail
    range := fun k hmem => h.range k (List.mem_of_mem_tail hmem) }

/-- The environment's turn keeps the ports within their capacities, with a place for a key while the block waits. -/
theorem envTurn_keeps_within {s : State} (h : s.ports.Within s.params 0) :
    s.envTurn.ports.Within s.params s.run.isWaiting.toNat :=
  moves_keep_within _ _ { h with events := Nat.le_add_right_of_le h.events }

/-! ### Registers, memory, stack, keys and framebuffer -/

theorem setReg_keeps_data {s : State} (h : s.DataOk) (x : Reg) (v : Byte) : (s.setReg x v).DataOk :=
  { h with sized := by simpa [State.Sized] using h.sized }

theorem setRF_keeps_data {s : State} (h : s.DataOk) (x : Reg) (r : Byte) (f : Bool) : (s.setRF x r f).DataOk := by
  unfold State.setRF
  split <;> exact setReg_keeps_data (setReg_keeps_data h _ _) _ _

theorem loadRegsFrom_keeps_data {s : State} (h : s.DataOk) (base count : Nat) : (s.loadRegsFrom base count).DataOk :=
  { h with sized := by simpa [State.Sized] using h.sized }

theorem setPc_keeps_data {s : State} (h : s.DataOk) {v : Nat} (hv : v < 0x10000) : (s.setPc v).DataOk := by
  obtain ⟨hsane, hV, hI, -, hDT, hST⟩ := h.sized
  exact { h with sized := ⟨hsane, hV, hI, (narrow_le _ v).trans_lt hv, hDT, hST⟩ }

theorem setI_keeps_data {s : State} (h : s.DataOk) (v : Nat) : (s.setI v).DataOk := by
  obtain ⟨hsane, hV, -, hpc, hDT, hST⟩ := h.sized
  exact { h with sized := ⟨hsane, hV, narrow_lt _ v, hpc, hDT, hST⟩ }

theorem setDT_keeps_data {s : State} (h : s.DataOk) {v : Nat} (hv : v < 256) : (s.setDT v).DataOk := by
  obtain ⟨hsane, hV, hI, hpc, -, hST⟩ := h.sized
  exact { h with sized := ⟨hsane, hV, hI, hpc, (narrow_le _ v).trans_lt hv, hST⟩ }

theorem setST_keeps_data {s : State} (h : s.DataOk) {v : Nat} (hv : v < 256) : (s.setST v).DataOk := by
  obtain ⟨hsane, hV, hI, hpc, hDT, -⟩ := h.sized
  exact { h with sized := ⟨hsane, hV, hI, hpc, hDT, (narrow_le _ v).trans_lt hv⟩ }

/-- SP_WIDTH holds every address of memory, so an even SP with its pair inside memory is stored as it is. -/
theorem setSP_keeps_data {s : State} (h : s.DataOk) {v : Nat} (heven : v % 2 = 0) (hv : v + 1 < s.params.memSize) :
    (s.setSP v).DataOk := by
  obtain ⟨-, -, -, -, -, hwidth, -⟩ := h.sized.1
  have hSP : (s.setSP v).SP = v := Nat.mod_eq_of_lt (by omega)
  exact { h with stackEven := by rw [hSP]; exact heven, stackFits := by rw [hSP]; exact hv }

theorem storeBlock_keeps_data {s : State} (h : s.DataOk) {base : Nat} {vs : List Byte}
    (hfits : base + vs.length ≤ s.params.memSize) : (s.storeBlock base vs).DataOk :=
  { h with memory := memWf_storeBlock h.memory hfits }

theorem storePair_keeps_data {s : State} (h : s.DataOk) {a : Nat} (ha : a + 1 < s.params.memSize) (w : Word) :
    (s.storePair a w).DataOk :=
  { h with memory := memWf_storePair h.memory ha w }

theorem putCanvas_keeps_data {s : State} (h : s.DataOk) {k : Canvas} (hk : k.fb.shaped s.params = true) :
    (s.putCanvas k).DataOk :=
  setReg_keeps_data (s := { s with fb := k.fb, dirty := k.dirty }) { h with fbShape := hk } vf _

theorem skipIf_keeps_data {s : State} (h : s.DataOk) (hpc : s.pc + 2 < 0x10000) (c : Bool) : (s.skipIf c).DataOk := by
  unfold State.skipIf
  split
  · exact setPc_keeps_data h hpc
  · exact h

theorem flush_keeps_data {s : State} (h : s.DataOk) : s.flush.DataOk := by
  unfold State.flush
  split
  · exact { h with }
  · exact h

theorem frameFinish_keeps_data {s : State} (h : s.DataOk) : s.frameFinish.DataOk := by
  obtain ⟨hsane, hV, hI, hpc, hDT, hST⟩ := h.sized
  exact ⟨by simp [State.Sized, *]; omega, by simpa [State.memWf] using h.memory, by simpa using h.program,
    by simpa using h.stackEven, by simpa using h.stackFits, by simpa using h.keysShape, by simpa using h.fbShape⟩

/-- A pending vector has NKEYS flags, so the drain leaves NKEYS flags. -/
theorem drain_keeps_data {s : State} (h : s.DataOk) {room : Nat} (hports : s.ports.Within s.params room) :
    s.drain.DataOk := by
  refine { h with keysShape := ?_ }
  rw [drain_keys, drain_params]
  cases hpending : s.ports.pendingKeys with
  | none => exact h.keysShape
  | some flags =>
    refine hports.shapes flags (List.mem_of_mem_head? ?_)
    simp only [Ports.pendingKeys] at hpending
    split at hpending
    · exact hpending
    · cases hpending

/-- A fetched pair lies in memory, whose addresses leave the advanced pc room for a skip below 16 bits. -/
theorem slotEntry_pc_add_two_lt {s : State} (h : s.DataOk) (hfits : s.pc + 2 ≤ s.params.memSize) :
    s.slotEntry.pc + 2 < 0x10000 := by
  obtain ⟨-, ⟨-, hmem⟩, -⟩ := h.sized.1
  have hpc : s.slotEntry.pc ≤ s.pc + 2 := narrow_le _ _
  omega

theorem slotEntry_keeps_data {s : State} (h : s.DataOk) {room : Nat} (hports : s.ports.Within s.params room)
    (hfits : s.pc + 2 ≤ s.params.memSize) : s.slotEntry.DataOk := by
  obtain ⟨-, ⟨-, hmem⟩, -⟩ := h.sized.1
  have hcounted : ({ s with slot := s.slot + 1 } : State).DataOk := { h with }
  exact drain_keeps_data (setPc_keeps_data hcounted (by omega)) hports

theorem receiveKey_keeps_data {s : State} (h : s.DataOk) (x : Reg) (k : Nat) : (s.receiveKey x k).DataOk := by
  have hreg := setReg_keeps_data h x (BitVec.ofNat 8 k)
  obtain ⟨hsane, hV, hI, hpc, -, -⟩ := hreg.sized
  exact { hreg with sized := ⟨hsane, hV, hI, hpc, Nat.zero_lt_succ _, Nat.zero_lt_succ _⟩ }

/-! ### Instructions -/

/-- A call moves SP to the next pair, whose range it has checked (spec/41_control_flow.md R132). -/
theorem call_keeps_data {s : State} (h : s.DataOk) (nnn : Addr12) (hfits : s.pushAddr + 2 ≤ s.params.memSize) (w : Word) :
    (((s.storePair s.pushAddr w).setSP s.pushAddr).setPc (zextAddr nnn)).DataOk := by
  have heven := h.stackEven
  have hpush : s.pushAddr = s.SP + 2 := rfl
  exact setPc_keeps_data (setSP_keeps_data (storePair_keeps_data h (by omega) w) (by omega) hfits) (zextAddr_lt_word nnn)

/-- A return moves SP to the pair below (spec/41_control_flow.md R130). -/
theorem ret_keeps_data {s : State} (h : s.DataOk) : ((s.setPc (s.pair s.SP).toNat).setSP (s.SP - 2)).DataOk := by
  have heven := h.stackEven
  have hfits := h.stackFits
  exact setSP_keeps_data (setPc_keeps_data h (s.pair s.SP).isLt) (by omega) (by rw [setPc_params]; omega)

/-- Every effect keeps the first part, from a pc that leaves room for a skip. -/
theorem Effect.keeps_data {s t : State} {i : Instr} (heffect : Effect s i t) (h : s.DataOk) (hpc : s.pc + 2 < 0x10000) :
    t.DataOk := by
  cases heffect with
  | fault | noOp => exact { h with }
  | result v => exact setReg_keeps_data h _ v
  | flagged r f => exact setRF_keeps_data h _ r f
  | random x kk v => exact setReg_keeps_data (s := s.afterDraw) { h with } x v
  | loaded x => exact loadRegsFrom_keeps_data h _ _
  | jump fits => exact setPc_keeps_data h fits
  | skip _ c => exact skipIf_keeps_data h hpc c
  | call nnn fits => exact call_keeps_data h nnn fits _
  | ret => exact ret_keeps_data h
  | index v => exact setI_keeps_data h v
  | delay x => exact setDT_keeps_data h (s.reg x).isLt
  | sound x => exact setST_keeps_data h (s.reg x).isLt
  | stored _ fits => exact storeBlock_keeps_data h fits
  | clear => exact { h with fbShape := shaped_blank s.params }
  | draw x y n => exact putCanvas_keeps_data h (shaped_drawn h.fbShape x y n)
  | wait => exact { flush_keeps_data h with }

/-- No instruction halts the block (spec/40_execution_cycle.md R111). -/
theorem Effect.not_halted {s t : State} {i : Instr} (heffect : Effect s i t) (h : s.run ≠ .halted) : t.run ≠ .halted := by
  cases heffect with
  | fault | wait => simp
  | _ => simpa using h

/-- An instruction at most offers events to the output ports. -/
theorem Effect.keeps_within {s t : State} {i : Instr} (heffect : Effect s i t) (h : s.ports.Within s.params 0) :
    t.ports.Within t.params 0 := by
  cases heffect with
  | noOp _ a w => exact offer_keeps_within h (.unknownOpcode a w)
  | wait => simpa using offer_keeps_within (flush_keeps_within h) _
  | _ => simpa using h

/-- Every instruction keeps the invariant, executed in a slot from a pc that leaves room for a skip. -/
theorem exec_keeps_inv {s t : State} {i : Instr} (h : s.Inv) (hrun : s.run = .running) (hphase : s.phase = .inFrame)
    (hpc : s.pc + 2 < 0x10000) (hexec : exec i s = .next t) : t.Inv := by
  obtain ⟨hdata, hcontrol, hports⟩ := (inv_iff s).1 h
  have heffect := effect_of_exec hexec
  obtain ⟨-, -, hslot, hphase', hparams⟩ := heffect.cycleKept
  have hipf : t.ipf = s.ipf := by rw [State.ipf, hparams]; rfl
  exact (inv_iff t).2 ⟨heffect.keeps_data hdata hpc,
    controlOk_inFrame (hphase'.trans hphase) (by rw [hslot, hipf]; exact hcontrol.slots)
      (heffect.not_halted (by simp [hrun])),
    heffect.keeps_within hports⟩

/-! ### Steps -/

theorem envTurn_keeps_data {s : State} (h : s.DataOk) : s.envTurn.DataOk := { h with }

theorem envTurn_keeps_control {s : State} (h : s.ControlOk) : s.envTurn.ControlOk := { h with }

/-- A frame start halts at its head, at or past END, or begins the slots anew (T1, T2). -/
theorem frameStart_keeps_inv {s : State} (h : s.Inv) (hrun : s.run = .running) (hphase : s.phase = .frameHead) :
    s.frameStart.Inv := by
  obtain ⟨hdata, hcontrol, hports⟩ := (inv_iff s).1 h
  unfold State.frameStart
  split
  · exact (inv_iff _).2 ⟨{ hdata with }, controlOk_inFrame rfl (Nat.zero_le _) (by simp [hrun]), hports⟩
  · next hpc =>
    exact (inv_iff _).2 ⟨{ hdata with }, { hcontrol with
      waiting := nofun, halted := fun _ => ⟨hphase, Nat.le_of_not_lt hpc⟩, faulted := nofun }, hports⟩

/-- The entry of a slot that fetches inside memory (T3). -/
theorem slotEntry_keeps_inv {s : State} (h : s.Inv) (hrun : s.run = .running) (hphase : s.phase = .inFrame)
    (hslot : s.slot < s.ipf) (hfits : s.pc + 2 ≤ s.params.memSize) : s.slotEntry.Inv := by
  obtain ⟨hdata, -, hports⟩ := (inv_iff s).1 h
  exact (inv_iff _).2 ⟨slotEntry_keeps_data hdata hports hfits, controlOk_inFrame hphase hslot (by simp [hrun]),
    drain_keeps_within (s := ({ s with slot := s.slot + 1 } : State).setPc (s.pc + 2)) hports⟩

/-- The frame end (T6). -/
theorem frameFinish_keeps_inv {s : State} (h : s.Inv) (hrun : s.run = .running) : s.frameFinish.Inv := by
  obtain ⟨hdata, hcontrol, hports⟩ := (inv_iff s).1 h
  exact (inv_iff _).2 ⟨frameFinish_keeps_data hdata,
    controlOk_running (by simpa using hrun) (by simpa [State.ipf] using hcontrol.slots) (by simp),
    by simpa using frameFinish_keeps_within hports⟩

/-- The environment's turn keeps the whole invariant, but while the block waits. -/
theorem envTurn_keeps_inv {s : State} (h : s.Inv) (hrun : s.run.isWaiting = false) : s.envTurn.Inv := by
  obtain ⟨hdata, hcontrol, hports⟩ := (inv_iff s).1 h
  have hturn := envTurn_keeps_within hports
  rw [hrun] at hturn
  exact (inv_iff _).2 ⟨envTurn_keeps_data hdata, envTurn_keeps_control hcontrol, hturn⟩

/-- A waiting block that finds no key after the environment's turn. -/
theorem waiting_keeps_inv {s : State} (h : s.Inv) (hkey : s.envTurn.ports.deliveredKey = none) : s.envTurn.Inv := by
  obtain ⟨hdata, hcontrol, hports⟩ := (inv_iff s).1 h
  exact (inv_iff _).2 ⟨envTurn_keeps_data hdata, envTurn_keeps_control hcontrol,
    within_of_no_key (envTurn_keeps_within hports) hkey⟩

/-- The key receipt (T7). -/
theorem receipt_keeps_inv {s : State} {x : Reg} (h : s.Inv) (hrun : s.run = .waitingKey x) (hphase : s.phase = .inFrame)
    (k : Nat) : (s.envTurn.receiveKey x k).Inv := by
  obtain ⟨hdata, hcontrol, hports⟩ := (inv_iff s).1 h
  have hturn := envTurn_keeps_within hports
  rw [hrun] at hturn
  exact (inv_iff _).2 ⟨receiveKey_keeps_data (envTurn_keeps_data hdata) x k,
    controlOk_inFrame hphase hcontrol.slots (by simp), within_of_receipt hturn⟩

/-- A slot is counted, as an empty slot or one whose fetch faults (T3, T4). -/
theorem slotCounted_keeps_inv {s : State} (h : s.Inv) (hphase : s.phase = .inFrame) (hslot : s.slot < s.ipf)
    {run : RunState} (hrun : run ≠ .halted) : ({ s with slot := s.slot + 1, run := run } : State).Inv := by
  obtain ⟨hdata, -, hports⟩ := (inv_iff s).1 h
  exact (inv_iff _).2 ⟨{ hdata with }, controlOk_inFrame hphase hslot hrun, hports⟩

/-- All slots are used, and the frame's tail is next (T5). -/
theorem slotsUsed_keeps_inv {s : State} (h : s.Inv) (hrun : s.run = .running) (hslot : s.slot = s.ipf) :
    ({ s with phase := .frameTail } : State).Inv := by
  obtain ⟨hdata, hcontrol, hports⟩ := (inv_iff s).1 h
  exact (inv_iff _).2 ⟨{ hdata with }, controlOk_running hrun hcontrol.slots fun _ => hslot, hports⟩

/-- Settles O15, row by row of R115: the environment's turn keeps the invariant, and from the state it leaves so does each
row; an instruction runs from the slot's entry state by its effects. -/
theorem stepKeepsInv : Obligations.StepKeepsInv := by
  intro s t h hstep
  have hturn (hrun : s.run = .running) : s.envTurn.Inv := envTurn_keeps_inv h (by rw [hrun]; rfl)
  rcases step_cases hstep with ⟨rfl, hstay⟩ | ⟨hrun, hphase, rfl⟩ | ⟨hrun, hphase, hslot, -, hfits, hexec⟩ |
    ⟨hrun, hphase, hslot, -, -, rfl⟩ | ⟨hrun, hphase, hslot, -, rfl⟩ | ⟨hrun, -, hslot, rfl⟩ | ⟨hrun, -, rfl⟩ |
    ⟨x, k, hrun, hphase, -, rfl⟩
  · rcases hstay with (hrun | ⟨r, hrun⟩) | ⟨x, -, -, hkey⟩
    · exact envTurn_keeps_inv h (by rw [hrun]; rfl)
    · exact envTurn_keeps_inv h (by rw [hrun]; rfl)
    · exact waiting_keeps_inv h hkey
  · exact frameStart_keeps_inv (hturn hrun) hrun hphase
  · have hentry := slotEntry_keeps_inv (hturn hrun) hrun hphase hslot hfits
    have hdata := ((inv_iff _).1 (hturn hrun)).1
    exact exec_keeps_inv hentry hrun hphase (slotEntry_pc_add_two_lt hdata hfits) hexec
  · exact slotCounted_keeps_inv (hturn hrun) hphase hslot (by simp)
  · exact slotCounted_keeps_inv (hturn hrun) hphase hslot (run := s.run) (by simp [hrun])
  · exact slotsUsed_keeps_inv (hturn hrun) hrun hslot
  · exact frameFinish_keeps_inv (hturn hrun) hrun
  · exact receipt_keeps_inv h hrun hphase k

/-! ### Reset -/

/-- Settles O16: registers, memory and stack of the default parameters, nothing used and no port filled. -/
theorem resetMeetsInv : Obligations.ResetMeetsInv := by
  unfold Obligations.ResetMeetsInv
  refine (inv_iff _).2 ⟨?_, ?_, ?_⟩
  · exact ⟨by decide, rfl, by decide, rfl, by decide, rfl, shaped_blank Params.default⟩
  · exact controlOk_running rfl (Nat.zero_le _) nofun
  · exact ⟨by decide, by decide, by decide, nofun, by decide, nofun, nofun⟩

/-- Nothing is written at reset, so every address reads as its initial byte. -/
theorem reset_byte (a : Nat) : State.reset.byte a = Memory.initial Params.default a := rfl

/-- At reset every register that an instruction names is 0 (spec/10_state.md R37). -/
theorem reset_reg (j : Reg) : State.reset.reg j = 0#8 := by
  revert j
  decide

/-- Below FONT_BASE and past the font memory is 0 (spec/20_memory.md R57). -/
theorem default_initial_outside {a : Nat} (ha : a < 0x50 ∨ 0xA0 ≤ a) : Memory.initial Params.default a = 0#8 := by
  have hbase : Params.default.fontBase = 0x50 := rfl
  have hlength := default_font_length
  unfold Memory.initial
  split
  · exact List.getD_eq_default _ _ (by omega)
  · rfl

/-- From FONT_BASE on memory holds FONT. -/
theorem initial_font (p : Params) (k : Nat) : Memory.initial p (p.fontBase + k) = p.font.getD k 0#8 := by
  simp [Memory.initial]

/-- Settles O19: registers and screen by computation, memory by what an unwritten address reads as. -/
theorem resetValues : Obligations.ResetValues := by
  refine ⟨rfl, rfl, rfl, rfl, rfl, rfl, reset_reg, rfl, rfl, rfl, rfl, rfl, rfl, rfl, rfl, fun a ha => ?_, fun d r _ _ => ?_⟩
  · rw [reset_byte, default_initial_outside ha]
  · rw [reset_byte, Nat.add_assoc]
    exact initial_font Params.default (5 * d + r)

end Sys2Proof.Machine
end

section
/-!
Who writes memory (spec/20_memory.md R50). The shape `Effect.stored` leaves its instruction open, so the writers are read off
`exec` itself; the range and key checks around a meaning add only faults, which write nothing.
-/

namespace Sys2Proof.Machine

/-- Whatever state the outcome answers, its memory is that of `s`. -/
def KeepsMemory (s : State) (o : Host.Outcome State Fault Refusal) : Prop := ∀ t, o = .next t → t.mem = s.mem

theorem keepsMemory_next {s t : State} (h : t.mem = s.mem) : KeepsMemory s (.next t) := by
  rintro _ ⟨⟩
  exact h

/-- A fault keeps memory: the record is all it writes (spec/60_exceptions.md R252). -/
theorem keepsMemory_raise (kind : FaultKind) (info : Nat) (i : Instr) (s : State) : KeepsMemory s (raise kind info i s) :=
  keepsMemory_next (enterFault_mem s _)

theorem keepsMemory_withRange {s : State} {o : Host.Outcome State Fault Refusal} (h : KeepsMemory s o) (base count : Nat)
    (i : Instr) : KeepsMemory s (withRange base count i s o) := by
  rcases withRange_cases base count i s o with ⟨-, heq⟩ | ⟨-, heq⟩
  · rwa [heq]
  · rw [heq]
    exact keepsMemory_raise _ _ i s

theorem keepsMemory_withKeyIndex {s : State} {o : Host.Outcome State Fault Refusal} (h : KeepsMemory s o) (k : Byte)
    (i : Instr) : KeepsMemory s (withKeyIndex k i s o) := by
  by_cases hk : k.toNat < s.params.nkeys
  · rwa [withKeyIndex_in hk]
  · rw [withKeyIndex_above (Nat.le_of_not_lt hk)]
    exact keepsMemory_raise _ _ i s

/-- RET reads the stack and leaves it as it is (spec/41_control_flow.md R130). -/
theorem keepsMemory_execRet (x : Nibble) (s : State) : KeepsMemory s (execRet x s) := by
  unfold execRet
  split
  · exact keepsMemory_raise _ _ _ s
  · exact keepsMemory_withRange (keepsMemory_next (by simp)) _ _ _

theorem keepsMemory_execDrw (x y : Reg) (n : Nibble) (s : State) : KeepsMemory s (execDrw x y n s) := by
  have hdrawn : KeepsMemory s (.next (s.putCanvas (s.drawn x y n))) := keepsMemory_next (putCanvas_mem s _)
  unfold execDrw
  split
  · exact hdrawn
  · exact keepsMemory_withRange hdrawn _ _ _

theorem keepsMemory_execAddI (x : Reg) (s : State) : KeepsMemory s (execAddI x s) := by
  unfold execAddI
  split
  · exact keepsMemory_raise _ _ _ s
  · exact keepsMemory_next (setI_mem s _)

/-- Settles O25: CALL, Fx33 and Fx55 are excluded; a checked instruction keeps memory inside its check, and every other one
answers a state whose update leaves memory out. -/
theorem onlyCallBcdAndStoreWriteMemory : Obligations.OnlyCallBcdAndStoreWriteMemory := by
  intro i s t h hcall hldB hstore
  suffices hkeeps : KeepsMemory s (exec i s) from hkeeps t h
  cases i with
  | call nnn => exact absurd rfl (hcall nnn)
  | ldB x => exact absurd rfl (hldB x)
  | storeRegs x => exact absurd rfl (hstore x)
  | ret x => exact keepsMemory_execRet x s
  | drw x y n => exact keepsMemory_execDrw x y n s
  | addI x => exact keepsMemory_execAddI x s
  | skp | sknp => exact keepsMemory_withKeyIndex (keepsMemory_next (skipIf_mem s _)) _ _
  | loadRegs x => exact keepsMemory_withRange (keepsMemory_next (loadRegsFrom_mem s _ _)) _ _ _
  | _ => exact keepsMemory_next (by simp)

end Sys2Proof.Machine
end

section
/-!
Decoder and encoder are inverse to each other (spec/30_encoding.md R72 to R76): a class's decoder inverts the words of its
class, the no-ops of R77 being those whose selector is none of the class's operations. The rows of the opcode map and the
no-op space are then read off the encoder, whose fields are known.
-/

namespace Sys2Proof

/-! ### Well-formed no-ops (R77) -/

@[simp] theorem wellFormed_noop0 (x : Nibble) (kk : Byte) : WellFormed (.noop0 x kk) = true ↔ kk ∉ class0Ops := by
  simp [WellFormed]

@[simp] theorem wellFormed_noop8 (x y n : Nibble) : WellFormed (.noop8 x y n) = true ↔ n ∉ class8Ops := by
  simp [WellFormed]

@[simp] theorem wellFormed_noopE (x : Nibble) (kk : Byte) : WellFormed (.noopE x kk) = true ↔ kk ∉ classEOps := by
  simp [WellFormed]

@[simp] theorem wellFormed_noopF (x : Nibble) (kk : Byte) : WellFormed (.noopF x kk) = true ↔ kk ∉ classFOps := by
  simp [WellFormed]

/-! ### The classes with a selector -/

theorem decodeClass0_of_not_mem {kk : Byte} (h : kk ∉ class0Ops) (x : Nibble) : decodeClass0 x kk = .noop0 x kk := by
  simp_all [class0Ops, decodeClass0]

theorem decodeClass8_of_not_mem {n : Nibble} (h : n ∉ class8Ops) (x y : Nibble) : decodeClass8 x y n = .noop8 x y n := by
  simp_all [class8Ops, decodeClass8]

theorem decodeClassE_of_not_mem {kk : Byte} (h : kk ∉ classEOps) (x : Nibble) : decodeClassE x kk = .noopE x kk := by
  simp_all [classEOps, decodeClassE]

theorem decodeClassF_of_not_mem {kk : Byte} (h : kk ∉ classFOps) (x : Nibble) : decodeClassF x kk = .noopF x kk := by
  simp_all [classFOps, decodeClassF]

/-- The instruction is well formed, and `w` is its word. -/
def HasWord (i : Instr) (w : Word) : Prop := WellFormed i = true ∧ encode i = w

theorem decodeClass0_hasWord (x : Nibble) (kk : Byte) : HasWord (decodeClass0 x kk) (packXKK 0x0#4 x kk) := by
  by_cases hop : kk ∈ class0Ops
  · simp only [class0Ops, List.mem_cons, List.not_mem_nil, or_false] at hop
    rcases hop with rfl | rfl <;> exact ⟨rfl, rfl⟩
  · rw [decodeClass0_of_not_mem hop]
    exact ⟨(wellFormed_noop0 x kk).2 hop, rfl⟩

theorem decodeClass8_hasWord (x y n : Nibble) : HasWord (decodeClass8 x y n) (packXYN 0x8#4 x y n) := by
  by_cases hop : n ∈ class8Ops
  · simp only [class8Ops, List.mem_cons, List.not_mem_nil, or_false] at hop
    rcases hop with rfl | rfl | rfl | rfl | rfl | rfl | rfl | rfl | rfl <;> exact ⟨rfl, rfl⟩
  · rw [decodeClass8_of_not_mem hop]
    exact ⟨(wellFormed_noop8 x y n).2 hop, rfl⟩

theorem decodeClassE_hasWord (x : Nibble) (kk : Byte) : HasWord (decodeClassE x kk) (packXKK 0xE#4 x kk) := by
  by_cases hop : kk ∈ classEOps
  · simp only [classEOps, List.mem_cons, List.not_mem_nil, or_false] at hop
    rcases hop with rfl | rfl <;> exact ⟨rfl, rfl⟩
  · rw [decodeClassE_of_not_mem hop]
    exact ⟨(wellFormed_noopE x kk).2 hop, rfl⟩

theorem decodeClassF_hasWord (x : Nibble) (kk : Byte) : HasWord (decodeClassF x kk) (packXKK 0xF#4 x kk) := by
  by_cases hop : kk ∈ classFOps
  · simp only [classFOps, List.mem_cons, List.not_mem_nil, or_false] at hop
    rcases hop with rfl | rfl | rfl | rfl | rfl | rfl | rfl | rfl | rfl <;> exact ⟨rfl, rfl⟩
  · rw [decodeClassF_of_not_mem hop]
    exact ⟨(wellFormed_noopF x kk).2 hop, rfl⟩

@[simp] theorem decodeWord_class0 (x : Nibble) (kk : Byte) : decodeWord (packXKK 0x0#4 x kk) = decodeClass0 x kk := by
  simp [decodeWord]

@[simp] theorem decodeWord_class8 (x y n : Nibble) : decodeWord (packXYN 0x8#4 x y n) = decodeClass8 x y n := by
  simp [decodeWord]

@[simp] theorem decodeWord_classE (x : Nibble) (kk : Byte) : decodeWord (packXKK 0xE#4 x kk) = decodeClassE x kk := by
  simp [decodeWord]

@[simp] theorem decodeWord_classF (x : Nibble) (kk : Byte) : decodeWord (packXKK 0xF#4 x kk) = decodeClassF x kk := by
  simp [decodeWord]

/-! ### The two directions -/

/-- The decoder inverts the encoder: in a class with a selector by the class's decoder, elsewhere by the fields alone. -/
theorem decodeWord_encode {i : Instr} (h : WellFormed i = true) : decodeWord (encode i) = i := by
  cases i with
  | cls x | ret x => exact decodeWord_class0 x _
  | movReg x y | orReg x y | andReg x y | xorReg x y | addReg x y | subReg x y | shr x y | subbReg x y | shl x y =>
    exact decodeWord_class8 x y _
  | skp x | sknp x => exact decodeWord_classE x _
  | ldVxDT x | ldVxK x | ldDTVx x | ldSTVx x | addI x | ldF x | ldB x | storeRegs x | loadRegs x =>
    exact decodeWord_classF x _
  | noop0 x kk => exact (decodeWord_class0 x kk).trans (decodeClass0_of_not_mem ((wellFormed_noop0 x kk).1 h) x)
  | noop8 x y n => exact (decodeWord_class8 x y n).trans (decodeClass8_of_not_mem ((wellFormed_noop8 x y n).1 h) x y)
  | noopE x kk => exact (decodeWord_classE x kk).trans (decodeClassE_of_not_mem ((wellFormed_noopE x kk).1 h) x)
  | noopF x kk => exact (decodeWord_classF x kk).trans (decodeClassF_of_not_mem ((wellFormed_noopF x kk).1 h) x)
  | _ => simp [encode, decodeWord]

theorem decode_encodeBytes (i : Instr) : decode (encodeBytes i) = .ok (decodeWord (encode i), []) := by
  simp [encodeBytes, decode]

/-- Settles O1: the two bytes join to the word again, and the decoder inverts the encoder. -/
theorem decodeEncodeRoundTrip : Obligations.DecodeEncodeRoundTrip := by
  intro i h
  rw [decode_encodeBytes, decodeWord_encode h]

theorem packNNN_of_class {w : Word} {c : Nibble} (h : fieldC w = c) : packNNN c (fieldNNN w) = w :=
  h ▸ packNNN_fields w

theorem packXKK_of_class {w : Word} {c : Nibble} (h : fieldC w = c) : packXKK c (fieldX w) (fieldKK w) = w :=
  h ▸ packXKK_fields w

theorem packXYN_of_class {w : Word} {c : Nibble} (h : fieldC w = c) :
    packXYN c (fieldX w) (fieldY w) (fieldN w) = w :=
  h ▸ packXYN_fields w

theorem HasWord.congr {i : Instr} {v w : Word} (h : HasWord i v) (hvw : v = w) : HasWord i w := hvw ▸ h

/-- The sixteen opcode classes (R75). -/
theorem class_cases (c : Nibble) :
    c = 0x0#4 ∨ c = 0x1#4 ∨ c = 0x2#4 ∨ c = 0x3#4 ∨ c = 0x4#4 ∨ c = 0x5#4 ∨ c = 0x6#4 ∨ c = 0x7#4 ∨
      c = 0x8#4 ∨ c = 0x9#4 ∨ c = 0xA#4 ∨ c = 0xB#4 ∨ c = 0xC#4 ∨ c = 0xD#4 ∨ c = 0xE#4 ∨ c = 0xF#4 := by
  revert c
  decide

/-- The encoder reaches every word, class by class: the instruction is built from the word's own fields. -/
theorem exists_hasWord (w : Word) : ∃ i, HasWord i w := by
  rcases class_cases (fieldC w) with h | h | h | h | h | h | h | h | h | h | h | h | h | h | h | h
  · exact ⟨_, (decodeClass0_hasWord _ _).congr (packXKK_of_class h)⟩
  · exact ⟨.jp _, rfl, packNNN_of_class h⟩
  · exact ⟨.call _, rfl, packNNN_of_class h⟩
  · exact ⟨.seImm _ _, rfl, packXKK_of_class h⟩
  · exact ⟨.sneImm _ _, rfl, packXKK_of_class h⟩
  · exact ⟨.seReg _ _ _, rfl, packXYN_of_class h⟩
  · exact ⟨.ldImm _ _, rfl, packXKK_of_class h⟩
  · exact ⟨.addImm _ _, rfl, packXKK_of_class h⟩
  · exact ⟨_, (decodeClass8_hasWord _ _ _).congr (packXYN_of_class h)⟩
  · exact ⟨.sneReg _ _ _, rfl, packXYN_of_class h⟩
  · exact ⟨.ldI _, rfl, packNNN_of_class h⟩
  · exact ⟨.jpV0 _, rfl, packNNN_of_class h⟩
  · exact ⟨.rnd _ _, rfl, packXKK_of_class h⟩
  · exact ⟨.drw _ _ _, rfl, packXYN_of_class h⟩
  · exact ⟨_, (decodeClassE_hasWord _ _).congr (packXKK_of_class h)⟩
  · exact ⟨_, (decodeClassF_hasWord _ _).congr (packXKK_of_class h)⟩

/-- What the decoder reads from a word is the one well-formed instruction with that word. -/
theorem decodeWord_eq_iff {w : Word} {i : Instr} : decodeWord w = i ↔ HasWord i w := by
  constructor
  · rintro rfl
    obtain ⟨i, hwf, rfl⟩ := exists_hasWord w
    rw [decodeWord_encode hwf]
    exact ⟨hwf, rfl⟩
  · rintro ⟨hwf, rfl⟩
    exact decodeWord_encode hwf

/-- Settles O2: the instruction decoded has the word it is decoded from. -/
theorem everyWordIsOneInstruction : Obligations.EveryWordIsOneInstruction := fun _ => decodeWord_eq_iff.1 rfl

/-! ### The rows of the opcode map (R75) -/

/-- Every instruction's word matches its own row of the opcode table. -/
theorem tableRow : ∀ i, Laws.TableRow.Statement i
  | .cls x => Laws.TableRow.cls x
  | .ret x => Laws.TableRow.ret x
  | .jp nnn => Laws.TableRow.jp nnn
  | .call nnn => Laws.TableRow.call nnn
  | .seImm x kk => Laws.TableRow.seImm x kk
  | .sneImm x kk => Laws.TableRow.sneImm x kk
  | .seReg x y n => Laws.TableRow.seReg x y n
  | .ldImm x kk => Laws.TableRow.ldImm x kk
  | .addImm x kk => Laws.TableRow.addImm x kk
  | .movReg x y => Laws.TableRow.movReg x y
  | .orReg x y => Laws.TableRow.orReg x y
  | .andReg x y => Laws.TableRow.andReg x y
  | .xorReg x y => Laws.TableRow.xorReg x y
  | .addReg x y => Laws.TableRow.addReg x y
  | .subReg x y => Laws.TableRow.subReg x y
  | .shr x y => Laws.TableRow.shr x y
  | .subbReg x y => Laws.TableRow.subbReg x y
  | .shl x y => Laws.TableRow.shl x y
  | .sneReg x y n => Laws.TableRow.sneReg x y n
  | .ldI nnn => Laws.TableRow.ldI nnn
  | .jpV0 nnn => Laws.TableRow.jpV0 nnn
  | .rnd x kk => Laws.TableRow.rnd x kk
  | .drw x y n => Laws.TableRow.drw x y n
  | .skp x => Laws.TableRow.skp x
  | .sknp x => Laws.TableRow.sknp x
  | .ldVxDT x => Laws.TableRow.ldVxDT x
  | .ldVxK x => Laws.TableRow.ldVxK x
  | .ldDTVx x => Laws.TableRow.ldDTVx x
  | .ldSTVx x => Laws.TableRow.ldSTVx x
  | .addI x => Laws.TableRow.addI x
  | .ldF x => Laws.TableRow.ldF x
  | .ldB x => Laws.TableRow.ldB x
  | .storeRegs x => Laws.TableRow.storeRegs x
  | .loadRegs x => Laws.TableRow.loadRegs x
  | .noop0 x kk => Laws.TableRow.noop0 x kk
  | .noop8 x y n => Laws.TableRow.noop8 x y n
  | .noopE x kk => Laws.TableRow.noopE x kk
  | .noopF x kk => Laws.TableRow.noopF x kk

theorem row_mnemonics_nodup : ((exactRows ++ fallbackRows).map OpcodeRow.mnemonic).Nodup := by decide

theorem exactRows_apart : ∀ r ∈ exactRows, ∀ q ∈ exactRows, r.pattern &&& q.mask = q.pattern &&& r.mask → r = q := by
  decide

/-- Rows of one mnemonic are one row. -/
theorem eq_of_mnemonic_eq {r q : OpcodeRow} (hr : r ∈ exactRows ++ fallbackRows) (hq : q ∈ exactRows ++ fallbackRows)
    (h : r.mnemonic = q.mnemonic) : r = q :=
  List.inj_on_of_nodup_map row_mnemonics_nodup hr hq h

/-- Two exact rows that match one word are one row: their patterns agree in the bits that both masks fix. -/
theorem eq_of_matches {r q : OpcodeRow} (hr : r ∈ exactRows) (hq : q ∈ exactRows) {w : Word}
    (hrw : w &&& r.mask = r.pattern) (hqw : w &&& q.mask = q.pattern) : r = q :=
  exactRows_apart r hr q hq (by rw [← hrw, ← hqw, BitVec.and_assoc, BitVec.and_assoc, BitVec.and_comm r.mask])

theorem fieldC_and (v w : Word) : fieldC (v &&& w) = fieldC v &&& fieldC w :=
  BitVec.extractLsb'_and

theorem exactRows_mask_class : ∀ r ∈ exactRows, fieldC r.mask = 0xF#4 := by decide

/-- A word that an exact row matches is of the row's class. -/
theorem fieldC_pattern {r : OpcodeRow} (hr : r ∈ exactRows) {w : Word} (hmatch : w &&& r.mask = r.pattern) :
    fieldC r.pattern = fieldC w := by
  rw [← hmatch, fieldC_and, exactRows_mask_class r hr]
  exact BitVec.and_allOnes

/-- In a class whose exact rows select by `kk`, a word matches one only if its `kk` is the row's. -/
theorem kk_mem_of_matches {c : Nibble} {ops : List Byte}
    (hclass : ∀ r ∈ exactRows, fieldC r.pattern = c → r.mask = 0xF0FF#16 ∧ fieldKK r.pattern ∈ ops)
    {r : OpcodeRow} (hr : r ∈ exactRows) {x : Nibble} {kk : Byte} (hmatch : packXKK c x kk &&& r.mask = r.pattern) :
    kk ∈ ops := by
  obtain ⟨hmask, hop⟩ := hclass r hr (by rw [fieldC_pattern hr hmatch, fieldC_packXKK])
  rwa [← hmatch, hmask, Laws.packXKK_low, fieldKK_packXKK] at hop

/-- Class 8's exact rows select by `n`: a word matches one only if its `n` is the row's. -/
theorem n_mem_of_matches {r : OpcodeRow} (hr : r ∈ exactRows) {x y n : Nibble}
    (hmatch : packXYN 0x8#4 x y n &&& r.mask = r.pattern) : n ∈ class8Ops := by
  have hclass : ∀ r ∈ exactRows, fieldC r.pattern = 0x8#4 → r.mask = 0xF00F#16 ∧ fieldN r.pattern ∈ class8Ops := by decide
  obtain ⟨hmask, hop⟩ := hclass r hr (by rw [fieldC_pattern hr hmatch, fieldC_packXYN])
  rwa [← hmatch, hmask, Laws.packXYN_low, fieldN_packXYN] at hop

/-- No exact row matches the word of a no-op (R77). -/
theorem not_matches_of_isNoOp {i : Instr} (hwf : WellFormed i = true) (hnoop : i.isNoOp = true) {r : OpcodeRow}
    (hr : r ∈ exactRows) : encode i &&& r.mask ≠ r.pattern := by
  intro hmatch
  cases i with
  | noop0 x kk => exact (wellFormed_noop0 x kk).1 hwf (kk_mem_of_matches (by decide) hr hmatch)
  | noop8 x y n => exact (wellFormed_noop8 x y n).1 hwf (n_mem_of_matches hr hmatch)
  | noopE x kk => exact (wellFormed_noopE x kk).1 hwf (kk_mem_of_matches (by decide) hr hmatch)
  | noopF x kk => exact (wellFormed_noopF x kk).1 hwf (kk_mem_of_matches (by decide) hr hmatch)
  | _ => cases hnoop

/-- The fallback rows carry the mnemonics of the no-ops alone. -/
theorem mnemonic_not_fallback {i : Instr} (h : i.isNoOp = false) : ∀ r ∈ fallbackRows, r.mnemonic ≠ i.mnemonic := by
  cases i with
  | noop0 | noop8 | noopE | noopF => cases h
  | _ => simp only [Instr.mnemonic]; decide

/-- An exact row matches a well-formed instruction's word just when it is the instruction's own row. -/
theorem matches_iff_mnemonic {i : Instr} (hwf : WellFormed i = true) {r : OpcodeRow} (hr : r ∈ exactRows) :
    encode i &&& r.mask = r.pattern ↔ i.mnemonic = r.mnemonic := by
  obtain ⟨own, hown, hname, hmatch⟩ := tableRow i
  constructor
  · intro hrow
    cases hnoop : i.isNoOp with
    | true => exact absurd hrow (not_matches_of_isNoOp hwf hnoop hr)
    | false =>
      have hexact : own ∈ exactRows := (List.mem_append.1 hown).resolve_right fun hfallback =>
        mnemonic_not_fallback hnoop own hfallback hname
      rw [← hname, eq_of_matches hexact hr hmatch hrow]
  · intro hsame
    rwa [← eq_of_mnemonic_eq hown (List.mem_append_left _ hr) (hname.trans hsame)]

/-- Settles O3: the row that a word matches is that of the instruction decoded from it, whose word it is. -/
theorem decoderFollowsOpcodeTable : Obligations.DecoderFollowsOpcodeTable := by
  intro w r hr
  obtain ⟨hwf, henc⟩ : HasWord (decodeWord w) w := decodeWord_eq_iff.1 rfl
  have hrow := matches_iff_mnemonic hwf hr
  rwa [henc] at hrow

/-! ### The no-op space (R77) -/

theorem not_mem_class0Ops {kk : Byte} : kk ∉ class0Ops ↔ kk ≠ 0xE0#8 ∧ kk ≠ 0xEE#8 := by
  simp [class0Ops]

theorem not_mem_class8Ops {n : Nibble} : n ∉ class8Ops ↔ n ∈ [0x8#4, 0x9#4, 0xA#4, 0xB#4, 0xC#4, 0xD#4, 0xF#4] := by
  revert n
  decide

theorem not_mem_classEOps {kk : Byte} : kk ∉ classEOps ↔ kk ≠ 0x9E#8 ∧ kk ≠ 0xA1#8 := by
  simp [classEOps]

/-- The no-op space in the decoder's own lists of selectors. A no-op's word shows its class and selector, and a word with
these fields decodes to that no-op. -/
theorem isNoOp_decodeWord_iff (w : Word) : (decodeWord w).isNoOp = true ↔
    (fieldC w = 0x0#4 ∧ fieldKK w ∉ class0Ops) ∨ (fieldC w = 0x8#4 ∧ fieldN w ∉ class8Ops) ∨
      (fieldC w = 0xE#4 ∧ fieldKK w ∉ classEOps) ∨ (fieldC w = 0xF#4 ∧ fieldKK w ∉ classFOps) := by
  constructor
  · obtain ⟨i, hwf, rfl⟩ := exists_hasWord w
    rw [decodeWord_encode hwf]
    intro hnoop
    cases i with
    | noop0 | noop8 | noopE | noopF => simpa [encode] using hwf
    | _ => cases hnoop
  · rintro (⟨hc, hop⟩ | ⟨hc, hop⟩ | ⟨hc, hop⟩ | ⟨hc, hop⟩)
    · rw [decodeWord_eq_iff.2 ⟨(wellFormed_noop0 _ _).2 hop, packXKK_of_class hc⟩]
      rfl
    · rw [decodeWord_eq_iff.2 ⟨(wellFormed_noop8 _ _ _).2 hop, packXYN_of_class hc⟩]
      rfl
    · rw [decodeWord_eq_iff.2 ⟨(wellFormed_noopE _ _).2 hop, packXKK_of_class hc⟩]
      rfl
    · rw [decodeWord_eq_iff.2 ⟨(wellFormed_noopF _ _).2 hop, packXKK_of_class hc⟩]
      rfl

/-- Settles O4: the operations' selectors left out of each class are the spec's. -/
theorem noOpSpace : Obligations.NoOpSpace := by
  intro w
  rw [← not_mem_class0Ops, ← not_mem_class8Ops, ← not_mem_classEOps]
  exact isNoOp_decodeWord_iff w

/-- Settles O5: each pair of bytes is the encoding of the instruction named. -/
theorem specWordsDecode : Obligations.SpecWordsDecode :=
  ⟨decodeEncodeRoundTrip (.cls 5#4) rfl, decodeEncodeRoundTrip (.ret 0xA#4) rfl,
    decodeEncodeRoundTrip (.jp 0xABC#12) rfl, decodeEncodeRoundTrip (.seImm 3#4 0x42#8) rfl,
    decodeEncodeRoundTrip (.seReg 1#4 2#4 7#4) rfl, decodeEncodeRoundTrip (.ldImm 0#4 0x0A#8) rfl,
    decodeEncodeRoundTrip (.addReg 0#4 1#4) rfl, decodeEncodeRoundTrip (.noop8 1#4 2#4 8#4) rfl,
    decodeEncodeRoundTrip (.ldI 0x123#12) rfl, decodeEncodeRoundTrip (.drw 1#4 2#4 0xF#4) rfl,
    decodeEncodeRoundTrip (.sknp 1#4) rfl, decodeEncodeRoundTrip (.storeRegs 3#4) rfl⟩

end Sys2Proof
end

section
/-! No instruction is refused (spec/30_encoding.md R78). -/

namespace Sys2Proof.Machine

/-- Settles O22: an effect of the instruction is what exec answers. -/
theorem everyInstructionAnswersNext : Obligations.EveryInstructionAnswersNext := by
  intro i s
  obtain ⟨t, hexec, -⟩ := exec_effect i s
  exact ⟨t, hexec⟩

end Sys2Proof.Machine
end

section
/-!
The execution cycle row by row (spec/40_execution_cycle.md R100 to R115): the state that each row leaves, over the state after
the environment's turn, read off the row's own law in Laws/Step.lean; then the runs that never leave their state.
-/

namespace Sys2Proof.Machine

/-! ### The environment's turn -/

/-- A turn that the script holds is made move by move (log entries 3, 4). -/
theorem envTurn_ports_of_script {s : State} {moves : List EnvMove} {rest : List (List EnvMove)}
    (h : s.env.script = moves :: rest) :
    s.envTurn.ports = moves.foldl (Ports.move s.params s.run.isWaiting) s.ports := by
  simp [State.envTurn, Env.coming, h]

theorem envTurn_script (s : State) : s.envTurn.env.script = s.env.script.tail := rfl

/-- Settles O8: the turn is an update of ports and inputs, and the script is consumed from its head. -/
theorem environmentTouchesOnlyPorts : Obligations.EnvironmentTouchesOnlyPorts := fun s =>
  ⟨envTurn_eq s, fun _ _ h => ⟨envTurn_ports_of_script h, by rw [envTurn_script, h, List.tail_cons]⟩⟩

/-! ### The slot that runs -/

theorem decodeWord_of_decode {hi lo : Byte} {i : Instr} (h : decode [hi, lo] = .ok (i, [])) :
    decodeWord (joinBytes hi lo) = i := by
  simpa [decode] using h

/-- T3, the fetch succeeds: the step is the decoded instruction's meaning in the slot's entry state. -/
theorem step_slot_fits {s : State} (hrun : s.run = .running) (hphase : s.phase = .inFrame) (hslot : s.slot < s.ipf)
    (hpc : s.pc < s.progEnd) (hfits : s.pc + 2 ≤ s.params.memSize) :
    step s = exec (decodeWord (s.pair s.pc)) s.envTurn.slotEntry :=
  step_of_execute ((schedule_slot hrun hphase hslot hpc).trans (beginSlot_fits (e := s.envTurn) hfits))

/-- T3, the fetch needs a byte beyond memory. -/
theorem step_slot_past {s : State} (hrun : s.run = .running) (hphase : s.phase = .inFrame) (hslot : s.slot < s.ipf)
    (hpc : s.pc < s.progEnd) (hpast : s.params.memSize < s.pc + 2) :
    step s = .next (s.envTurn.fetchFault (max s.pc s.params.memSize)) :=
  step_of_settled ((schedule_slot hrun hphase hslot hpc).trans (beginSlot_past (e := s.envTurn) hpast))

/-- Settles O6: the entry state is that of the state after the environment's turn. -/
theorem stepRunsDecodedInstruction : Obligations.StepRunsDecodedInstruction := by
  intro s i hrun hphase hslot hpc hmem hdecode
  have hinstr : decodeWord (s.pair s.pc) = i := decodeWord_of_decode hdecode
  refine ⟨s.envTurn.slotEntry, ?_, rfl, rfl, rfl, rfl, rfl, rfl, rfl, rfl, rfl, rfl, rfl, rfl, rfl, rfl, rfl, rfl, rfl,
    rfl⟩
  rw [step_slot_fits hrun hphase hslot hpc hmem, hinstr]

/-- Settles O7: of the two bytes only the one at MEM_SIZE is missing. -/
theorem fetchPastMemoryFaults : Obligations.FetchPastMemoryFaults := by
  intro s hrun hphase hslot hpc hlast
  have hinfo : max s.pc s.params.memSize = s.params.memSize := by omega
  rw [step_slot_past hrun hphase hslot hpc (by omega), hinfo]
  rfl

/-! ### Frame start, empty slots, all slots used -/

theorem frameStart_of_past {s : State} (h : s.progEnd ≤ s.pc) : s.frameStart = { s with run := .halted } :=
  if_neg (Nat.not_lt.2 h)

theorem frameStart_of_inside {s : State} (h : s.pc < s.progEnd) : s.frameStart = { s with slot := 0, phase := .inFrame } :=
  if_pos h

/-- Settles O9: T1 and T2 are the two branches of the frame's start. -/
theorem frameStart : Obligations.FrameStart := by
  intro s hrun hphase
  rw [step_of_settled (schedule_frameHead hrun hphase)]
  exact ⟨fun hpast => by rw [frameStart_of_past (s := s.envTurn) hpast],
    fun hinside => by rw [frameStart_of_inside (s := s.envTurn) hinside]⟩

/-- Settles O10: T4 and T5. -/
theorem emptySlotAndSlotsUsed : Obligations.EmptySlotAndSlotsUsed := fun _ hrun hphase =>
  ⟨fun hslot hpast => step_of_settled (schedule_emptySlot hrun hphase hslot (Nat.not_lt.2 hpast)),
    fun hused => step_of_settled (schedule_slotsUsed hrun hphase hused)⟩

/-! ### The frame end -/

theorem flush_trace (s : State) : s.flush.trace = s.trace ++ if s.dirty then [.frameOut s.fb] else [] := by
  unfold State.flush
  split <;> simp

theorem flush_ports (s : State) :
    s.flush.ports = if s.dirty then s.ports.offer s.params (.frameOut s.fb) else s.ports := by
  unfold State.flush
  split <;> rfl

theorem tickST_trace (s : State) : s.tickST.trace = s.trace ++ if 0 < s.ST then [.sound] else [] := by
  unfold State.tickST
  split
  · next h => simp [h]
  · next h => simp [Nat.pos_of_ne_zero h]

theorem tickST_ports (s : State) : s.tickST.ports = if 0 < s.ST then s.ports.offer s.params .sound else s.ports := by
  unfold State.tickST
  split
  · next h => simp [h]
  · next h => simp [Nat.pos_of_ne_zero h]

/-- The frame end's events, the sound before the frame (spec/60_exceptions.md R258; spec/44_display_raster.md R211). -/
theorem frameFinish_trace (s : State) :
    s.frameFinish.trace =
      s.trace ++ (if 0 < s.ST then [.sound] else []) ++ (if s.dirty then [.frameOut s.fb] else []) := by
  simp [State.frameFinish, flush_trace, tickST_trace]

/-- The ports after both offers of the frame end (spec/60_exceptions.md R260). -/
theorem frameFinish_ports (s : State) :
    s.frameFinish.ports =
      if s.dirty then
        (if 0 < s.ST then s.ports.offer s.params .sound else s.ports).offer s.params (.frameOut s.fb)
      else if 0 < s.ST then s.ports.offer s.params .sound else s.ports := by
  simp [State.frameFinish, flush_ports, tickST_ports]

/-- Settles O11: T6 field by field, with what the two offers leave in trace and ports. -/
theorem frameEndTicksAndFlushes : Obligations.FrameEndTicksAndFlushes := by
  intro s hrun hphase
  have hregs : RegsKept s s.envTurn.frameFinish noReg := fun j _ => reg_of_V (frameFinish_V s.envTurn) j
  have hbytes : BytesKept s s.envTurn.frameFinish noByte := fun a _ =>
    byte_congr (frameFinish_mem s.envTurn) (frameFinish_params s.envTurn) a
  have hrun' : s.envTurn.frameFinish.run = .running := (frameFinish_run s.envTurn).trans hrun
  exact ⟨s.envTurn.frameFinish, step_of_settled (schedule_frameTail hrun hphase), frameFinish_DT _, frameFinish_ST _,
    frameFinish_dirty _, frameFinish_trace s.envTurn, frameFinish_phase _, hrun', frameFinish_slot _, frameFinish_pc _,
    frameFinish_I _, frameFinish_SP _, hregs, hbytes, frameFinish_fb _, frameFinish_keys _, frameFinish_len _,
    frameFinish_params _, frameFinish_ports s.envTurn, frameFinish_env _⟩

/-! ### No-ops -/

theorem exec_of_isNoOp {i : Instr} (h : i.isNoOp = true) (s : State) : exec i s = noOp i s := by
  cases i with
  | noop0 | noop8 | noopE | noopF => rfl
  | _ => cases h

/-- Settles O58: every no-op row is the one meaning `noOp`, whose event no port takes. -/
theorem noOpsOnlyLog : Obligations.NoOpsOnlyLog := by
  intro i s h
  exact ⟨s.emit (.unknownOpcode s.instrAddr (encode i)), exec_of_isNoOp h s, rfl, fun _ _ => rfl, fun _ _ => rfl, rfl,
    ⟨rfl, rfl, rfl, rfl⟩, ⟨rfl, rfl⟩, ⟨rfl, rfl, rfl, rfl, rfl⟩, rfl, rfl, rfl⟩

/-! ### Progress -/

/-- A slot that runs answers a next state, whether the fetch stays inside memory or not. -/
theorem step_slot_answers_next {s : State} (hrun : s.run = .running) (hphase : s.phase = .inFrame)
    (hslot : s.slot < s.ipf) (hpc : s.pc < s.progEnd) : ∃ t, step s = .next t := by
  by_cases hfits : s.pc + 2 ≤ s.params.memSize
  · rw [step_slot_fits hrun hphase hslot hpc hfits]
    exact everyInstructionAnswersNext _ _
  · exact ⟨_, step_slot_past hrun hphase hslot hpc (Nat.lt_of_not_le hfits)⟩

/-- A running block answers a next state while it has used no more slots than a frame has. -/
theorem step_running_answers_next {s : State} (hrun : s.run = .running) (hslots : s.slot ≤ s.ipf) :
    ∃ t, step s = .next t := by
  cases hphase : s.phase with
  | frameHead => exact ⟨_, step_of_settled (schedule_frameHead hrun hphase)⟩
  | frameTail => exact ⟨_, step_of_settled (schedule_frameTail hrun hphase)⟩
  | inFrame =>
    rcases Nat.lt_or_eq_of_le hslots with hslot | hused
    · by_cases hpc : s.pc < s.progEnd
      · exact step_slot_answers_next hrun hphase hslot hpc
      · exact ⟨_, step_of_settled (schedule_emptySlot hrun hphase hslot hpc)⟩
    · exact ⟨_, step_of_settled (schedule_slotsUsed hrun hphase hused)⟩

/-- T8: a block that has ended takes no part in the step. -/
theorem step_terminal {s : State} (h : s.run = .halted ∨ ∃ r, s.run = .faulted r) : step s = .next s.envTurn :=
  step_of_settled (schedule_terminal h)

/-- Settles O17: the invariant excludes the two states without a row, too many slots used and a wait outside the slots. -/
theorem invStepAnswersNext : Obligations.InvStepAnswersNext := by
  intro s h
  cases hrun : s.run with
  | running => exact step_running_answers_next hrun h.slots
  | waitingKey x =>
    rcases schedule_waitingInFrame hrun (h.waiting x hrun) with ⟨k, -, hreceipt⟩ | ⟨-, hstay⟩
    · exact ⟨_, step_of_settled hreceipt⟩
    · exact ⟨_, step_of_settled hstay⟩
  | halted => exact ⟨_, step_terminal (.inl hrun)⟩
  | faulted r => exact ⟨_, step_terminal (.inr ⟨r, hrun⟩)⟩

/-! ### Runs that stay -/

theorem run_succ_of_next {s t : State} (h : step s = .next t) (k : Nat) : core.run (k + 1) s = core.run k t := by
  have hcore : core.step s = .next t := h
  simp only [Host.Core.run, hcore]

/-- Where every step is the environment's turn alone, for as long as a condition holds that the turn keeps, any number of
steps changes only ports and the environment's inputs. -/
theorem run_stays {P : State → Prop} (hstep : ∀ s, P s → step s = .next s.envTurn) (hturn : ∀ s, P s → P s.envTurn)
    (k : Nat) : ∀ s, P s → ∃ t : State, core.run k s = .next t ∧ t = { s with ports := t.ports, env := t.env } := by
  induction k with
  | zero => exact fun s _ => ⟨s, rfl, rfl⟩
  | succ k ih =>
    intro s h
    obtain ⟨t, hrun, hkept⟩ := ih s.envTurn (hturn s h)
    exact ⟨t, (run_succ_of_next (hstep s h) k).trans hrun, hkept⟩

/-- Settles O13: the environment's turn leaves the run state, so the block has ended at every step. -/
theorem terminalStatesStay : Obligations.TerminalStatesStay := fun k =>
  run_stays (P := fun s => s.run = .halted ∨ ∃ r, s.run = .faulted r) (fun _ => step_terminal) (fun _ h => h) k

end Sys2Proof.Machine
end

section
/-!
Control flow (spec/41_control_flow.md R130 to R139): the frames of jumps and skips, the state that CALL and RET each leave,
and the round trip of R139, by induction over the nested calls.
-/

namespace Sys2Proof.Machine

/-! ### Frames and faults -/

theorem onlyPcChanges_refl (s : State) : OnlyPcChanges s s :=
  ⟨fun _ _ => rfl, fun _ _ => rfl, ⟨rfl, rfl, rfl, rfl⟩, ⟨rfl, rfl⟩, ⟨rfl, rfl, rfl, rfl, rfl⟩, ⟨rfl, rfl, rfl, rfl⟩⟩

theorem onlyPcChanges_setPc (s : State) (v : Nat) : OnlyPcChanges s (s.setPc v) := onlyPcChanges_refl s

theorem onlyPcChanges_skipIf (s : State) (c : Bool) : OnlyPcChanges s (s.skipIf c) := by
  cases c with
  | false => exact onlyPcChanges_refl s
  | true => exact onlyPcChanges_setPc s _

/-- A raised fault leaves the record and nothing else (spec/60_exceptions.md R251, R252). -/
theorem faultsWith_raise (kind : FaultKind) (info : Nat) (i : Instr) (s : State) :
    FaultsWith (raise kind info i s) s kind (encode i) info :=
  ⟨_, raise_eq kind info i s, rfl, rfl, fun _ _ => rfl, fun _ _ => rfl, ⟨rfl, rfl, rfl, rfl⟩, ⟨rfl, rfl⟩,
    ⟨rfl, rfl, rfl, rfl, rfl⟩, rfl, rfl, rfl⟩

/-! ### Values that fit their registers -/

/-- A sane pc holds every 16-bit value. -/
theorem setPc_pc_of_word {s : State} (hsane : s.params.Sane) {v : Nat} (hv : v < 0x10000) : (s.setPc v).pc = v := by
  obtain ⟨-, -, -, -, hwidth, -⟩ := hsane
  exact narrow_of_fits (k := 16) hv hwidth

/-- A sane SP holds every address of memory. -/
theorem setSP_SP_of_address {s : State} (hsane : s.params.Sane) {v : Nat} (hv : v < s.params.memSize) :
    (s.setSP v).SP = v := by
  obtain ⟨-, -, -, -, -, hwidth, -⟩ := hsane
  exact Nat.mod_eq_of_lt (hv.trans_le hwidth)

/-- A pair is read big-endian (spec/20_memory.md R54). -/
theorem pair_toNat (s : State) (a : Nat) : (s.pair a).toNat = (s.byte a).toNat * 256 + (s.byte (a + 1)).toNat :=
  joinBytes_toNat _ _

/-! ### Jumps and skips -/

/-- Settles O33: neither target needs more than 16 bits. -/
theorem jumpsSetPc : Obligations.JumpsSetPc := fun nnn s hsane =>
  ⟨⟨_, rfl, setPc_pc_of_word hsane (zextAddr_lt_word nnn), onlyPcChanges_setPc s _⟩,
    ⟨_, rfl, setPc_pc_of_word hsane (execJpV0_target_lt nnn s), onlyPcChanges_setPc s _⟩⟩

/-- Settles O36: each skip is `skipIf` of its condition. -/
theorem skipsAddTwo : Obligations.SkipsAddTwo := fun x y kk n s =>
  ⟨⟨_, rfl, by simp [narrow], onlyPcChanges_skipIf s _⟩, ⟨_, rfl, by simp [narrow], onlyPcChanges_skipIf s _⟩,
    ⟨_, rfl, by simp [narrow], onlyPcChanges_skipIf s _⟩, ⟨_, rfl, by simp [narrow], onlyPcChanges_skipIf s _⟩⟩

/-! ### RET -/

/-- The state after a RET that pops (spec/41_control_flow.md R130). -/
def State.afterRet (s : State) : State := (s.setPc (s.pair s.SP).toNat).setSP (s.SP - 2)

theorem exec_ret_pops {s : State} (x : Nibble) (hne : s.SP ≠ 0) (hfits : s.SP + 1 < s.params.memSize) :
    exec (.ret x) s = .next s.afterRet :=
  (if_neg hne).trans (withRange_fits hfits _ _)

theorem afterRet_pc {s : State} (hsane : s.params.Sane) : s.afterRet.pc = (s.pair s.SP).toNat :=
  setPc_pc_of_word hsane (s.pair s.SP).isLt

theorem afterRet_SP {s : State} (hsane : s.params.Sane) (hfits : s.SP + 1 < s.params.memSize) :
    s.afterRet.SP = s.SP - 2 :=
  setSP_SP_of_address (s := s.setPc _) hsane (by rw [setPc_params]; omega)

theorem byte_afterRet (s : State) (a : Nat) : s.afterRet.byte a = s.byte a := rfl

/-- Settles O31: the pop writes pc and SP alone. -/
theorem retPopsReturnAddress : Obligations.RetPopsReturnAddress := by
  intro x s hsane hne hfits
  have hpc : s.afterRet.pc = (s.byte s.SP).toNat * 256 + (s.byte (s.SP + 1)).toNat :=
    (afterRet_pc hsane).trans (pair_toNat s s.SP)
  exact ⟨s.afterRet, exec_ret_pops x hne hfits, hpc, afterRet_SP hsane hfits, fun _ _ => rfl,
    fun a _ => byte_afterRet s a, rfl, rfl, rfl, ⟨rfl, rfl⟩, ⟨rfl, rfl, rfl, rfl, rfl⟩, ⟨rfl, rfl, rfl, rfl⟩⟩

/-- Settles O32: the check of SP comes first (decision D3). -/
theorem retOnEmptyStackFaults : Obligations.RetOnEmptyStackFaults := by
  intro x s hempty
  have hexec : exec (.ret x) s = raise .stackUnderflow (s.pc - 2) (.ret x) s := if_pos hempty
  rw [hexec]
  exact faultsWith_raise _ _ _ s

/-! ### CALL -/

/-- The state after a CALL that executes with `pc` and pushes it (spec/41_control_flow.md R132). -/
def State.afterCall (s : State) (pc : Nat) (nnn : Addr12) : State :=
  ((s.storePair s.pushAddr (BitVec.ofNat 16 pc)).setSP s.pushAddr).setPc (zextAddr nnn)

section
variable {s : State} (pc : Nat) (nnn : Addr12) (hsane : s.params.Sane) (hmem : s.memWf = true)
  (hfits : s.SP + 3 < s.params.memSize)

include hfits in
theorem exec_call_pushes : exec (.call nnn) { s with pc := pc } = .next (s.afterCall pc nnn) :=
  withRange_fits (base := s.pushAddr) (s := { s with pc := pc }) hfits _ _

include hsane hfits in
theorem afterCall_SP : (s.afterCall pc nnn).SP = s.SP + 2 :=
  setSP_SP_of_address (s := s.storePair _ _) hsane (by rw [storePair_params, State.pushAddr]; omega)

include hsane in
theorem afterCall_pc : (s.afterCall pc nnn).pc = nnn.toNat :=
  setPc_pc_of_word (s := (s.storePair _ _).setSP _) hsane (zextAddr_lt_word nnn)

include hmem hfits in
/-- The return address stands big-endian at the new SP, and every other byte is as it was. -/
theorem byte_afterCall (a : Nat) :
    (s.afterCall pc nnn).byte a =
      if a = s.pushAddr then highByte (BitVec.ofNat 16 pc)
      else if a = s.pushAddr + 1 then lowByte (BitVec.ofNat 16 pc) else s.byte a :=
  byte_storePair hmem hfits _ a

include hmem hfits in
theorem memWf_afterCall : (s.afterCall pc nnn).memWf = true :=
  memWf_storePair (a := s.pushAddr) hmem hfits _

include hmem hfits in
theorem pair_afterCall : (s.afterCall pc nnn).pair s.pushAddr = BitVec.ofNat 16 pc := by
  have hhigh : (s.afterCall pc nnn).byte s.pushAddr = highByte (BitVec.ofNat 16 pc) := by
    simp [byte_afterCall pc nnn hmem hfits]
  have hlow : (s.afterCall pc nnn).byte (s.pushAddr + 1) = lowByte (BitVec.ofNat 16 pc) := by
    simp [byte_afterCall pc nnn hmem hfits]
  calc (s.afterCall pc nnn).pair s.pushAddr
      = joinBytes ((s.afterCall pc nnn).byte s.pushAddr) ((s.afterCall pc nnn).byte (s.pushAddr + 1)) := rfl
    _ = BitVec.ofNat 16 pc := by rw [hhigh, hlow, joinBytes_high_low]

end

/-- Settles O34: the push writes two bytes, SP and pc; a sized pc is its own 16-bit value. -/
theorem callPushesReturnAddress : Obligations.CallPushesReturnAddress := by
  intro nnn s hsized hmem hfits
  obtain ⟨hsane, -, -, hpc, -⟩ := hsized
  have hbyte := byte_afterCall s.pc nnn hmem hfits
  have hpair : ((s.afterCall s.pc nnn).pair s.pushAddr).toNat = s.pc := by
    rw [pair_afterCall s.pc nnn hmem hfits]
    exact Nat.mod_eq_of_lt hpc
  have hkept : BytesKept s (s.afterCall s.pc nnn) (fun a => a = s.pushAddr ∨ a = s.pushAddr + 1) := fun a ha => by
    obtain ⟨hhigh, hlow⟩ := not_or.1 ha
    rw [hbyte, if_neg hhigh, if_neg hlow]
  exact ⟨s.afterCall s.pc nnn, exec_call_pushes s.pc nnn hfits, afterCall_SP s.pc nnn hsane hfits,
    afterCall_pc s.pc nnn hsane, (hbyte _).trans (by simp [State.pushAddr]), (hbyte _).trans (by simp [State.pushAddr]),
    (pair_toNat _ s.pushAddr).symm.trans hpair, hkept, fun _ _ => rfl, rfl, rfl, rfl, ⟨rfl, rfl⟩,
    ⟨rfl, rfl, rfl, rfl, rfl⟩, ⟨rfl, rfl, rfl, rfl⟩⟩

/-- Settles O35: the range check of both bytes precedes the push (decision D1). -/
theorem callPastMemoryFaults : Obligations.CallPastMemoryFaults := by
  intro nnn s hpast
  have hexec : exec (.call nnn) s = raise .memoryOutOfRange (max (s.SP + 2) s.params.memSize) (.call nnn) s :=
    withRange_past (base := s.pushAddr) (Nat.lt_succ_of_le hpast) _ _
  rw [hexec]
  exact faultsWith_raise _ _ _ s

/-! ### Nested calls and their returns (R139) -/

theorem callSeq_cons_of_next {s t : State} {pc : Nat} {nnn : Addr12} (h : exec (.call nnn) { s with pc := pc } = .next t)
    (calls : List (Nat × Addr12)) : callSeq ((pc, nnn) :: calls) s = callSeq calls t := by
  simp only [callSeq, h]

theorem retSeq_succ_of_next {s t : State} (h : exec (.ret 0#4) s = .next t) (k : Nat) :
    retSeq (k + 1) s = retSeq k t := by
  simp only [retSeq, h]

/-- One more return at the end of a sequence. -/
theorem retSeq_succ_last (k : Nat) : ∀ {s t u : State}, retSeq k s = .next t → exec (.ret 0#4) t = .next u →
    retSeq (k + 1) s = .next u := by
  induction k with
  | zero =>
    rintro s _ u ⟨⟩ hret
    exact retSeq_succ_of_next hret 0
  | succ k ih =>
    intro s t u hseq hret
    obtain ⟨s', hfirst, -⟩ := exec_effect (.ret 0#4) s
    rw [retSeq_succ_of_next hfirst] at hseq ⊢
    exact ih hseq hret

/-- What calls and as many returns leave of the state `s` they start in: all but pc and the stack above SP's pair. -/
structure Unwound (s u : State) : Prop where
  SP : u.SP = s.SP
  run : u.run = s.run
  V : u.V = s.V
  params : u.params = s.params
  stack : ∀ a, a < s.SP + 2 → u.byte a = s.byte a

theorem unwound_refl (s : State) : Unwound s s := ⟨rfl, rfl, rfl, rfl, fun _ _ => rfl⟩

/-- The RET of a call, in a state that holds the stack as the call has left it. -/
theorem ret_unwinds_call {s u : State} {pc : Nat} {nnn : Addr12} (hsane : s.params.Sane) (hmem : s.memWf = true)
    (hfits : s.SP + 3 < s.params.memSize) (h : Unwound (s.afterCall pc nnn) u) :
    exec (.ret 0#4) u = .next u.afterRet ∧ Unwound s u.afterRet ∧ u.afterRet.pc = pc % 0x10000 := by
  have hpush : s.pushAddr = s.SP + 2 := rfl
  have hSP : u.SP = s.pushAddr := h.SP.trans (afterCall_SP pc nnn hsane hfits)
  have hparams : u.params = s.params := h.params
  have husane : u.params.Sane := hparams ▸ hsane
  have hufits : u.SP + 1 < u.params.memSize := by rw [hSP, hparams]; exact hfits
  have hstack (a : Nat) (ha : a < s.pushAddr + 2) : u.byte a = (s.afterCall pc nnn).byte a :=
    h.stack a (by rwa [afterCall_SP pc nnn hsane hfits])
  have hpair : u.pair u.SP = BitVec.ofNat 16 pc :=
    calc u.pair u.SP
        = joinBytes (u.byte s.pushAddr) (u.byte (s.pushAddr + 1)) := by rw [hSP]; rfl
      _ = (s.afterCall pc nnn).pair s.pushAddr := by rw [hstack _ (by omega), hstack _ (by omega)]; rfl
      _ = BitVec.ofNat 16 pc := pair_afterCall pc nnn hmem hfits
  refine ⟨exec_ret_pops 0#4 (by omega) hufits, ⟨?_, h.run, h.V, hparams, fun a ha => ?_⟩, ?_⟩
  · rw [afterRet_SP husane hufits]
    omega
  · rw [byte_afterRet, hstack a (by omega), byte_afterCall pc nnn hmem hfits, if_neg (by omega), if_neg (by omega)]
  · rw [afterRet_pc husane, hpair]
    rfl

/-- Any number of nested calls, from any SP with room for them, and as many returns: the last return ends at the pc of the
first call, in the 16 bits of a pushed pair. -/
theorem calls_then_returns (calls : List (Nat × Addr12)) : ∀ s : State, s.params.Sane → s.memWf = true →
    s.SP + 2 * calls.length + 1 < s.params.memSize →
    ∃ t u, callSeq calls s = .next t ∧ t.SP = s.SP + 2 * calls.length ∧ retSeq calls.length t = .next u ∧
      Unwound s u ∧ ∀ first ∈ calls.head?, u.pc = first.1 % 0x10000 := by
  induction calls with
  | nil => exact fun s _ _ _ => ⟨s, s, rfl, rfl, rfl, unwound_refl s, nofun⟩
  | cons call calls ih =>
    obtain ⟨pc, nnn⟩ := call
    intro s hsane hmem hroom
    rw [List.length_cons] at hroom ⊢
    have hfits : s.SP + 3 < s.params.memSize := by omega
    have hSP := afterCall_SP pc nnn hsane hfits
    have hinnerRoom : (s.afterCall pc nnn).SP + 2 * calls.length + 1 < s.params.memSize := by omega
    obtain ⟨t, u, hcalls, htSP, hrets, hinner, -⟩ :=
      ih (s.afterCall pc nnn) hsane (memWf_afterCall pc nnn hmem hfits) hinnerRoom
    obtain ⟨hret, hunwound, hpc⟩ := ret_unwinds_call hsane hmem hfits hinner
    refine ⟨t, u.afterRet, (callSeq_cons_of_next (exec_call_pushes pc nnn hfits) calls).trans hcalls, by omega,
      retSeq_succ_last _ hrets hret, hunwound, ?_⟩
    rintro _ ⟨⟩
    exact hpc

/-- Settles O37: the sequence is not empty, and the pc of its first call fits 16 bits. -/
theorem callReturnRoundTrip : Obligations.CallReturnRoundTrip := by
  intro pc nnn rest s hsane hpc hmem hroom
  obtain ⟨t, u, hcalls, htSP, hrets, hunwound, hend⟩ := calls_then_returns ((pc, nnn) :: rest) s hsane hmem hroom
  have hupc : u.pc = pc := (hend (pc, nnn) rfl).trans (Nat.mod_eq_of_lt hpc)
  exact ⟨t, u, hcalls, htSP, hrets, hupc, hunwound.SP, hunwound.run, fun j _ => reg_of_V hunwound.V j⟩

end Sys2Proof.Machine
end

section
/-!
Register arithmetic (spec/42_register_arith.md R150 to R163): what an operation that writes one register leaves, and what SetRF
leaves (R151), each said once; an instruction then adds the numbers that its result and its flag stand for.
-/

namespace Sys2Proof.Machine

/-! ### Frames -/

/-- A state that differs from `s` in its registers alone. -/
theorem onlyRegsChange_of_eq_withV {s t : State} {V : List Byte} {changed : Reg → Prop} (ht : t = { s with V := V })
    (hregs : RegsKept s t changed) : OnlyRegsChange s t changed := by
  subst ht
  exact ⟨hregs, fun _ _ => rfl, rfl, ⟨rfl, rfl, rfl, rfl⟩, ⟨rfl, rfl⟩, ⟨rfl, rfl, rfl, rfl, rfl⟩, ⟨rfl, rfl, rfl, rfl⟩⟩

theorem onlyRegsChange_setReg (s : State) (x : Reg) (v : Byte) : OnlyRegsChange s (s.setReg x v) (fun j => j = x) :=
  onlyRegsChange_of_eq_withV rfl fun _ hj => reg_setReg_other s v hj

theorem setRF_eq_withV (s : State) (x : Reg) (r : Byte) (f : Bool) : ∃ V, s.setRF x r f = { s with V := V } := by
  unfold State.setRF
  split
  · exact ⟨_, rfl⟩
  · exact ⟨_, rfl⟩

theorem onlyRegsChange_setRF (s : State) (x : Reg) (r : Byte) (f : Bool) :
    OnlyRegsChange s (s.setRF x r f) (fun j => j = x ∨ j = vf) := by
  obtain ⟨V, hV⟩ := setRF_eq_withV s x r f
  refine onlyRegsChange_of_eq_withV hV fun j hj => ?_
  obtain ⟨hx, hf⟩ := not_or.1 hj
  exact reg_setRF_other s r f hx hf

/-! ### Results and flags -/

/-- What an operation that writes V[x] alone leaves (R152 to R157). -/
theorem setReg_writes {s : State} (h : s.Sized) (x : Reg) (v : Byte) :
    (s.setReg x v).reg x = v ∧ OnlyRegsChange s (s.setReg x v) (fun j => j = x) :=
  ⟨reg_setReg_same (named_of_sized h x) v, onlyRegsChange_setReg s x v⟩

/-- What SetRF leaves of a result and a flag that stand for the numbers `m` and `n` (R151). -/
theorem setRF_writes {s : State} (h : s.Sized) (x : Reg) {r : Byte} {f : Bool} {m n : Nat} (hr : r.toNat = m)
    (hf : (flagByte f).toNat = n) :
    ResultAndFlag s (s.setRF x r f) x m n ∧ OnlyRegsChange s (s.setRF x r f) (fun j => j = x ∨ j = vf) := by
  have hreg := fun j => reg_setRF (named_of_sized h x) (named_of_sized h vf) j r f
  refine ⟨⟨fun hne => ⟨?_, ?_⟩, fun heq => ?_⟩, onlyRegsChange_setRF s x r f⟩
  · simp [hreg, hne, hr]
  · simp [hreg, hne.symm, hf]
  · rw [hreg, if_pos ⟨heq.symm, rfl⟩, apply_ite BitVec.toNat, hf, hr]

theorem carryFlag_toNat (a b : Byte) : (flagByte (carryFlag a b)).toNat = if 255 < a.toNat + b.toNat then 1 else 0 := by
  simp [flagByte_toNat, carryFlag]

theorem greaterFlag_toNat (a b : Byte) : (flagByte (greaterFlag a b)).toNat = if b.toNat < a.toNat then 1 else 0 := by
  simp [flagByte_toNat, greaterFlag]

/-! ### Operations without a flag -/

/-- Settles O38: the value written is the immediate itself. -/
theorem loadImmediate : Obligations.LoadImmediate := fun x kk _ hsized => ⟨_, rfl, setReg_writes hsized x kk⟩

/-- Settles O39: the value written is the sum reduced to a byte. -/
theorem addImmediateWraps : Obligations.AddImmediateWraps := by
  intro x kk s hsized
  obtain ⟨hreg, hframe⟩ := setReg_writes hsized x (addResult (s.reg x) kk)
  exact ⟨_, rfl, (congrArg BitVec.toNat hreg).trans (addResult_toNat _ _), hframe⟩

/-- Settles O40: each of the four writes its value to V[x] alone. -/
theorem moveAndBitwise : Obligations.MoveAndBitwise := fun x _ _ hsized =>
  ⟨⟨_, rfl, setReg_writes hsized x _⟩, ⟨_, rfl, setReg_writes hsized x _⟩, ⟨_, rfl, setReg_writes hsized x _⟩,
    ⟨_, rfl, setReg_writes hsized x _⟩⟩

/-! ### Operations with a flag -/

/-- Settles O41: the flag is the carry of the exact sum. -/
theorem addRegisterSetsCarry : Obligations.AddRegisterSetsCarry := fun x _ _ hsized =>
  ⟨_, rfl, setRF_writes hsized x (addResult_toNat _ _) (carryFlag_toNat _ _)⟩

/-- Settles O42: the two differ in which operand is the minuend. -/
theorem subtractsSetNoBorrow : Obligations.SubtractsSetNoBorrow := fun x _ _ hsized =>
  ⟨⟨_, rfl, setRF_writes hsized x (subResult_toNat _ _) (greaterFlag_toNat _ _)⟩,
    ⟨_, rfl, setRF_writes hsized x (subResult_toNat _ _) (greaterFlag_toNat _ _)⟩⟩

/-- Settles O43: the bit shifted out is bit 0 to the right and bit 7 to the left. -/
theorem shiftsSetShiftedOutBit : Obligations.ShiftsSetShiftedOutBit := fun x _ _ hsized =>
  ⟨⟨_, rfl, setRF_writes hsized x (shrResult_toNat _) (lowBitFlag_toNat _)⟩,
    ⟨_, rfl, setRF_writes hsized x (shlResult_toNat _) (highBitFlag_toNat _)⟩⟩

/-! ### The random byte -/

theorem comingByte_of_bytes {e : Env} {b : Byte} {rest : List Byte} (h : e.bytes = b :: rest) : e.comingByte = b := by
  simp [Env.comingByte, h]

/-- Settles O44: the draw changes the environment's inputs alone, and the write is V[x]'s in the state after it. -/
theorem randomByteMasked : Obligations.RandomByteMasked := by
  intro x kk s hsized
  have hdrawn : s.afterDraw.Sized := hsized
  obtain ⟨hreg, hregs, hbytes, hpc, hspecials, hscreen, hcycle, hrun, htrace, hports, -⟩ :=
    setReg_writes hdrawn x (s.env.comingByte &&& kk)
  exact ⟨s.env.comingByte, _, rfl, hreg, fun _ _ => comingByte_of_bytes, hregs, hbytes, hpc, hspecials, hscreen, hcycle,
    hrun, htrace, hports, rfl, rfl, rfl, rfl⟩

end Sys2Proof.Machine
end

section
/-!
Index register, memory load and store (spec/43_memory_index.md R180 to R186): what an instruction that moves I, stores a block
or loads one leaves, each said once; the range checks of R181 then decide between that and the fault.
-/

namespace Sys2Proof.Machine

/-! ### The index register -/

theorem onlyIChanges_setI (s : State) (v : Nat) : OnlyIChanges s (s.setI v) :=
  ⟨fun _ _ => rfl, fun _ _ => rfl, rfl, rfl, rfl, rfl, ⟨rfl, rfl⟩, ⟨rfl, rfl, rfl, rfl, rfl⟩, ⟨rfl, rfl, rfl, rfl⟩⟩

/-- What an instruction that writes I alone leaves, where the value fits. -/
theorem setI_writes {s : State} {v : Nat} (hv : v < 2 ^ s.params.iWidth) :
    (s.setI v).I = v ∧ OnlyIChanges s (s.setI v) :=
  ⟨Nat.mod_eq_of_lt hv, onlyIChanges_setI s v⟩

/-- A sane I holds every 12-bit address (R180). -/
theorem zextAddr_fits_index {p : Params} (hsane : p.Sane) (nnn : Addr12) : zextAddr nnn < 2 ^ p.iWidth := by
  obtain ⟨-, -, -, ⟨hwidth, -⟩, -⟩ := hsane
  exact (zextAddr_lt nnn).trans_le (Nat.pow_le_pow_right Nat.two_pos hwidth)

/-- A sane I holds the address of a byte's glyph, 255's being the highest (R183). -/
theorem glyphAddr_fits_index {p : Params} (hsane : p.Sane) (v : Byte) :
    p.fontBase + p.glyphBytes * v.toNat < 2 ^ p.iWidth := by
  obtain ⟨-, -, -, ⟨-, hlast⟩, -⟩ := hsane
  have hglyph : p.glyphBytes * v.toNat ≤ p.glyphBytes * 255 := Nat.mul_le_mul_left _ (Nat.le_of_lt_succ v.isLt)
  omega

/-- Settles O45: neither value is reduced. -/
theorem loadIndexAndGlyph : Obligations.LoadIndexAndGlyph := fun nnn x s hsane =>
  ⟨⟨_, rfl, setI_writes (zextAddr_fits_index hsane nnn)⟩, ⟨_, rfl, setI_writes (glyphAddr_fits_index hsane (s.reg x))⟩⟩

/-- Settles O46: the two clauses are the two branches of the check of the sum (decision D4). -/
theorem addIndexOrOverflow : Obligations.AddIndexOrOverflow := by
  intro x s
  constructor
  · intro hfits
    have hexec : exec (.addI x) s = .next (s.setI (s.I + s.regNat x)) := if_neg (Nat.not_le.2 hfits)
    exact ⟨_, hexec, setI_writes hfits⟩
  · intro hpast
    have hexec : exec (.addI x) s = raise .indexOverflow (s.I + s.regNat x) (.addI x) s := if_pos hpast
    rw [hexec]
    exact faultsWith_raise _ _ _ s

/-! ### Stores -/

theorem onlyBytesChange_storeBlock (s : State) (base : Nat) (vs : List Byte) :
    OnlyBytesChange s (s.storeBlock base vs) (fun a => base ≤ a ∧ a < base + vs.length) :=
  ⟨fun _ _ => rfl, fun _ ha => byte_storeBlock_other s base vs ha, rfl, ⟨rfl, rfl, rfl, rfl⟩, ⟨rfl, rfl⟩,
    ⟨rfl, rfl, rfl, rfl, rfl⟩, ⟨rfl, rfl, rfl, rfl⟩⟩

@[simp] theorem bcdDigits_length (v : Byte) : (bcdDigits v).length = 3 := rfl

/-- The three digits of a stored byte, at the base and above (R184): none of them is reduced. -/
theorem byte_storeBlock_bcdDigits {s : State} (hmem : s.memWf = true) {base : Nat} (hfits : base + 2 < s.params.memSize)
    (v : Byte) :
    ((s.storeBlock base (bcdDigits v)).byte base).toNat = v.toNat / 100 ∧
      ((s.storeBlock base (bcdDigits v)).byte (base + 1)).toNat = v.toNat / 10 % 10 ∧
      ((s.storeBlock base (bcdDigits v)).byte (base + 2)).toNat = v.toNat % 10 := by
  have hv := v.isLt
  have hbyte := byte_storeBlock hmem (vs := bcdDigits v) hfits
  have hhundreds : (s.storeBlock base (bcdDigits v)).byte base = BitVec.ofNat 8 (v.toNat / 100) := hbyte 0 (by simp)
  have htens : (s.storeBlock base (bcdDigits v)).byte (base + 1) = BitVec.ofNat 8 (v.toNat / 10 % 10) := hbyte 1 (by simp)
  have hones : (s.storeBlock base (bcdDigits v)).byte (base + 2) = BitVec.ofNat 8 (v.toNat % 10) := hbyte 2 (by simp)
  rw [hhundreds, htens, hones]
  simp only [BitVec.toNat_ofNat]
  omega

/-- Settles O47: the recombination undoes the divisions by 100 and by 10. -/
theorem bcdStoresDigits : Obligations.BcdStoresDigits := by
  intro x s hmem hfits
  have hexec : exec (.ldB x) s = .next (s.storeBlock s.I (bcdDigits (s.reg x))) := withRange_fits hfits _ _
  obtain ⟨hhundreds, htens, hones⟩ := byte_storeBlock_bcdDigits hmem hfits (s.reg x)
  refine ⟨_, hexec, hhundreds, htens, hones, ?_, onlyBytesChange_storeBlock s s.I _⟩
  rw [hhundreds, htens, hones]
  omega

/-- Settles O48: the block stored is that of the registers up to x (decision D9). -/
theorem storeBlockCopiesRegisters : Obligations.StoreBlockCopiesRegisters := by
  intro x s hmem hfits
  have hlength : (s.regsUpTo x).length = x.toNat + 1 := regsUpTo_length s x
  have hexec : exec (.storeRegs x) s = .next (s.storeBlock s.I (s.regsUpTo x)) := withRange_fits hfits _ _
  have hframe := onlyBytesChange_storeBlock s s.I (s.regsUpTo x)
  rw [hlength] at hframe
  refine ⟨_, hexec, fun j hj => ?_, hframe⟩
  have hindex : j.toNat < (s.regsUpTo x).length := by omega
  rw [byte_storeBlock hmem (by rw [hlength]; exact hfits) j.toNat hindex, regsUpTo_getElem]

/-! ### Loads -/

/-- Settles O49: a register up to x takes its byte, one above it is kept (decision D9). -/
theorem loadBlockCopiesMemory : Obligations.LoadBlockCopiesMemory := by
  intro x s hsized hfits
  have hreg := reg_loadRegsFrom (named_of_sized hsized 0xF#4) s.I (x.toNat + 1)
  have hexec : exec (.loadRegs x) s = .next (s.loadRegsFrom s.I (x.toNat + 1)) := withRange_fits hfits _ _
  refine ⟨_, hexec, fun j hj => ?_, onlyRegsChange_of_eq_withV rfl fun j hj => ?_⟩
  · rw [hreg, if_pos (Nat.lt_succ_of_le hj)]
  · rw [hreg, if_neg fun h => hj (Nat.le_of_lt_succ h)]

/-! ### Ranges that end past memory -/

/-- A range check that fails faults with the lowest address out of range (R181, decision D1). -/
theorem faultsWith_withRange_past {base count : Nat} {s : State} (h : s.params.memSize < base + count) (i : Instr)
    (k : Host.Outcome State Fault Refusal) :
    FaultsWith (withRange base count i s k) s .memoryOutOfRange (encode i) (max base s.params.memSize) := by
  rw [withRange_past h]
  exact faultsWith_raise _ _ _ s

theorem exec_drw_of_rows {n : Nibble} (hn : 0 < n.toNat) (x y : Reg) (s : State) :
    exec (.drw x y n) s = withRange s.I n.toNat (.drw x y n) s (.next (s.putCanvas (s.drawn x y n))) :=
  if_neg (by rintro rfl; exact Nat.lt_irrefl 0 hn)

/-- Settles O50: each of the four checks its whole range first; DRW does so where it has rows to draw. -/
theorem indexedAccessPastMemoryFaults : Obligations.IndexedAccessPastMemoryFaults := by
  intro x y n s
  refine ⟨fun hpast => faultsWith_withRange_past hpast _ _,
    fun hpast => ⟨faultsWith_withRange_past hpast _ _, faultsWith_withRange_past hpast _ _⟩, fun hn hpast => ?_⟩
  rw [exec_drw_of_rows hn]
  exact faultsWith_withRange_past hpast _ _

end Sys2Proof.Machine
end

section
/-!
Display (spec/44_display_raster.md R200 to R210): the relation "the canvas is another with these bits XORed in", which one plotted
bit meets, which disjoint bits compose, and which a sprite therefore meets with its own bits (R209); DRW and its repetition (R210)
are then read off.
-/

namespace Sys2Proof.Machine

/-! ### CLS -/

/-- Settles O51: the grid is the blank one (decision D10 for dirty). -/
theorem clearScreen : Obligations.ClearScreen := fun _ s =>
  ⟨_, rfl, pixel_blank s.params, shaped_blank s.params, rfl, fun _ _ => rfl, fun _ _ => rfl, rfl, ⟨rfl, rfl, rfl, rfl⟩,
    ⟨rfl, rfl, rfl, rfl, rfl⟩, ⟨rfl, rfl, rfl, rfl⟩⟩

/-! ### Bits on screen -/

/-- Some position on screen has the property. -/
def OnScreen (p : Params) (P : Nat → Nat → Prop) : Prop := ∃ R C, R < p.fbRows ∧ C < p.fbCols ∧ P R C

theorem onScreen_congr {p : Params} {P Q : Nat → Nat → Prop} (h : ∀ R C, R < p.fbRows → C < p.fbCols → (P R C ↔ Q R C)) :
    OnScreen p P ↔ OnScreen p Q :=
  exists₂_congr fun R C => and_congr_right fun hR => and_congr_right fun hC => h R C hR hC

theorem onScreen_or {p : Params} {P Q : Nat → Nat → Prop} :
    OnScreen p (fun R C => P R C ∨ Q R C) ↔ OnScreen p P ∨ OnScreen p Q := by
  simp only [OnScreen, and_or_left, exists_or]

theorem onScreen_at {p : Params} {P : Nat → Nat → Prop} {row col : Nat} :
    OnScreen p (fun R C => (R = row ∧ C = col) ∧ P R C) ↔ (row < p.fbRows ∧ col < p.fbCols) ∧ P row col := by
  constructor
  · rintro ⟨_, _, hR, hC, ⟨rfl, rfl⟩, hP⟩
    exact ⟨⟨hR, hC⟩, hP⟩
  · rintro ⟨⟨hR, hC⟩, hP⟩
    exact ⟨row, col, hR, hC, ⟨rfl, rfl⟩, hP⟩

/-! ### Canvases that differ by XORed bits -/

/-- Canvas `k'` is `k` with the set bits of `bit` that are on screen XORed in (R209): each inverts its pixel and sets dirty, and
one that meets a pixel of `k` that is on sets the collision. -/
structure Canvas.XorsTo (p : Params) (bit : Nat → Nat → Bool) (k k' : Canvas) : Prop where
  shaped : k'.fb.shaped p = true
  pixel : ∀ R C, R < p.fbRows → C < p.fbCols → k'.fb.pixel R C = (k.fb.pixel R C ^^ bit R C)
  hit : k'.hit = true ↔ k.hit = true ∨ OnScreen p fun R C => bit R C = true ∧ k.fb.pixel R C = true
  dirty : k'.dirty = true ↔ k.dirty = true ∨ OnScreen p fun R C => bit R C = true

theorem xorsTo_self {p : Params} {k : Canvas} (hk : k.fb.shaped p = true) {bit : Nat → Nat → Bool}
    (hbit : ∀ R C, bit R C = false) : k.XorsTo p bit k := by
  constructor <;> simp [OnScreen, hbit, hk]

/-- The bits `a` and `b` are disjoint and `c` is their union: at each position one of the two is clear, and `c` is the other. -/
def BitsJoin (a b c : Nat → Nat → Bool) : Prop :=
  ∀ R C, (b R C = false ∧ c R C = a R C) ∨ (a R C = false ∧ c R C = b R C)

/-- Disjoint bits XORed in one after the other are XORed in together: the second meet the pixels that the first left. -/
theorem xorsTo_trans {p : Params} {a b c : Nat → Nat → Bool} {k₁ k₂ k₃ : Canvas} (hjoin : BitsJoin a b c)
    (h₁ : k₁.XorsTo p a k₂) (h₂ : k₂.XorsTo p b k₃) : k₁.XorsTo p c k₃ := by
  refine ⟨h₂.shaped, fun R C hR hC => ?_, ?_, ?_⟩
  · rw [h₂.pixel R C hR hC, h₁.pixel R C hR hC]
    rcases hjoin R C with ⟨hb, hc⟩ | ⟨ha, hc⟩
    · simp [hb, hc]
    · simp [ha, hc]
  · rw [h₂.hit, h₁.hit, or_assoc, ← onScreen_or]
    refine or_congr_right (onScreen_congr fun R C hR hC => ?_)
    rw [h₁.pixel R C hR hC]
    rcases hjoin R C with ⟨hb, hc⟩ | ⟨ha, hc⟩
    · simp [hb, hc]
    · simp [ha, hc]
  · rw [h₂.dirty, h₁.dirty, or_assoc, ← onScreen_or]
    refine or_congr_right (onScreen_congr fun R C _ _ => ?_)
    rcases hjoin R C with ⟨hb, hc⟩ | ⟨ha, hc⟩
    · simp [hb, hc]
    · simp [ha, hc]

/-! ### A sprite's bits -/

/-- The bit of a sprite byte drawn at (row, col), of which the `count` leftmost columns are drawn, that covers (R, C) (R206). -/
def byteBit (row col count : Nat) (bits : Byte) (R C : Nat) : Bool :=
  decide (R = row ∧ col ≤ C ∧ C < col + count) && bits.getLsbD (7 - (C - col))

/-- The bit of the `count` bytes at `base`, drawn as rows downward from (row, col), that covers (R, C) (R206). -/
def blockBit (p : Params) (m : Memory) (row col base count R C : Nat) : Bool :=
  decide (row ≤ R ∧ R < row + count ∧ col ≤ C ∧ C < col + 8) &&
    (Memory.read p m (base + (R - row))).getLsbD (7 - (C - col))

theorem spriteBit_eq_blockBit (s : State) (x y : Reg) (n : Nibble) :
    s.spriteBit x y n = blockBit s.params s.mem (s.spriteRow y) (s.spriteCol x) s.I n.toNat := rfl

theorem byteBit_zero (row col : Nat) (bits : Byte) (R C : Nat) : byteBit row col 0 bits R C = false := by
  simp [byteBit]

/-- One more column of a byte. -/
theorem byteBit_succ (row col count : Nat) (bits : Byte) :
    BitsJoin (byteBit row col count bits) (fun R C => decide (R = row ∧ C = col + count) && bits.getLsbD (7 - count))
      (byteBit row col (count + 1) bits) := by
  intro R C
  unfold byteBit
  by_cases hC : C = col + count
  · right
    subst hC
    simp
  · left
    have hiff : C < col + (count + 1) ↔ C < col + count := by omega
    simp [hC, hiff]

theorem blockBit_zero (p : Params) (m : Memory) (row col base R C : Nat) : blockBit p m row col base 0 R C = false := by
  have hempty : ¬ (row ≤ R ∧ R < row) := by omega
  simp [blockBit, ← and_assoc, hempty]

/-- One more row of a block, above the others. -/
theorem blockBit_succ (p : Params) (m : Memory) (row col base count : Nat) :
    BitsJoin (byteBit row col 8 (Memory.read p m base)) (blockBit p m (row + 1) col (base + 1) count)
      (blockBit p m row col base (count + 1)) := by
  intro R C
  unfold byteBit blockBit
  by_cases hR : R = row
  · left
    subst hR
    simp
  · right
    refine ⟨by simp [hR], ?_⟩
    by_cases hbelow : row + 1 ≤ R
    · have haddr : base + (R - row) = base + 1 + (R - (row + 1)) := by omega
      have hlast : R < row + (count + 1) ↔ R < row + 1 + count := by omega
      simp [haddr, hlast, hbelow, Nat.le_of_succ_le hbelow]
    · have habove : ¬ row ≤ R := by omega
      simp [hbelow, habove]

/-! ### Drawing -/

/-- A set bit is plotted, a clear one is not. -/
theorem plot_if_xorsTo {p : Params} {k : Canvas} (hk : k.fb.shaped p = true) (row col : Nat) (bit : Bool) :
    k.XorsTo p (fun R C => decide (R = row ∧ C = col) && bit) (if bit then k.plot p row col else k) := by
  cases bit with
  | false => exact xorsTo_self hk (by simp)
  | true =>
    obtain ⟨hpixel, hhit, hdirty⟩ := plot_spec hk row col
    refine ⟨shaped_plot hk row col, fun R C hR hC => ?_, ?_, ?_⟩
    · have hscreen : (R = row ∧ C = col ∧ row < p.fbRows ∧ col < p.fbCols) ↔ (R = row ∧ C = col) := by omega
      simp [hpixel, hscreen]
    · simp [hhit, onScreen_at]
    · simp [hdirty, OnScreen]

/-- The `count` leftmost columns of a byte drawn, as `Canvas.drawByte` draws all eight. -/
def Canvas.drawColumns (p : Params) (k : Canvas) (row col : Nat) (bits : Byte) (count : Nat) : Canvas :=
  (List.range count).foldl (fun k b => if bits.getLsbD (7 - b) then k.plot p row (col + b) else k) k

theorem drawColumns_succ (p : Params) (k : Canvas) (row col : Nat) (bits : Byte) (count : Nat) :
    k.drawColumns p row col bits (count + 1) =
      if bits.getLsbD (7 - count) then (k.drawColumns p row col bits count).plot p row (col + count)
      else k.drawColumns p row col bits count := by
  simp [Canvas.drawColumns, List.range_succ]

theorem drawColumns_xorsTo {p : Params} {k : Canvas} (hk : k.fb.shaped p = true) (row col : Nat) (bits : Byte) (count : Nat) :
    k.XorsTo p (byteBit row col count bits) (k.drawColumns p row col bits count) := by
  induction count with
  | zero => exact xorsTo_self hk (byteBit_zero row col bits)
  | succ count ih =>
    rw [drawColumns_succ]
    exact xorsTo_trans (byteBit_succ row col count bits) ih (plot_if_xorsTo ih.shaped row (col + count) _)

theorem drawByte_xorsTo {p : Params} {k : Canvas} (hk : k.fb.shaped p = true) (row col : Nat) (bits : Byte) :
    k.XorsTo p (byteBit row col 8 bits) (k.drawByte p row col bits) :=
  drawColumns_xorsTo hk row col bits 8

theorem drawRows_xorsTo {p : Params} (m : Memory) (col count : Nat) : ∀ {k : Canvas} (row base : Nat),
    k.fb.shaped p = true →
      k.XorsTo p (blockBit p m row col base count) (k.drawRows p row col (Memory.readBlock p m base count)) := by
  induction count with
  | zero => exact fun row base hk => xorsTo_self hk (blockBit_zero p m row col base)
  | succ count ih =>
    intro k row base hk
    have hbyte := drawByte_xorsTo hk row col (Memory.read p m base)
    exact xorsTo_trans (blockBit_succ p m row col base count) hbyte (ih (row + 1) (base + 1) hbyte.shaped)

/-- The closed form of a draw (R209). -/
theorem drawn_xorsTo {s : State} (h : s.fb.shaped s.params = true) (x y : Reg) (n : Nibble) :
    Canvas.XorsTo s.params (s.spriteBit x y n) { fb := s.fb, hit := false, dirty := s.dirty } (s.drawn x y n) :=
  drawRows_xorsTo s.mem (s.spriteCol x) n.toNat (s.spriteRow y) s.I h

/-! ### DRW -/

/-- The state after a DRW Vx, Vy, n whose rows are all in memory (R201, R204). -/
def State.afterDrw (s : State) (x y : Reg) (n : Nibble) : State := s.putCanvas (s.drawn x y n)

/-- With no rows to draw nothing is checked (R208). -/
theorem exec_drw_fits {n : Nibble} {s : State} (hfits : n = 0#4 ∨ s.I + n.toNat ≤ s.params.memSize) (x y : Reg) :
    exec (.drw x y n) s = .next (s.afterDrw x y n) := by
  by_cases hn : n = 0#4
  · exact if_pos hn
  · exact (if_neg hn).trans (withRange_fits (hfits.resolve_left hn) _ _)

theorem reg_afterDrw_other (s : State) (x y : Reg) (n : Nibble) {j : Reg} (hj : j ≠ vf) :
    (s.afterDrw x y n).reg j = s.reg j :=
  reg_setReg_other { s with fb := _, dirty := _ } _ hj

theorem reg_afterDrw_vf {s : State} (hsized : s.Sized) (x y : Reg) (n : Nibble) :
    (s.afterDrw x y n).reg vf = flagByte (s.drawn x y n).hit :=
  reg_setReg_same (s := { s with fb := _, dirty := _ }) (named_of_sized hsized vf) _

theorem sized_afterDrw {s : State} (hsized : s.Sized) (x y : Reg) (n : Nibble) : (s.afterDrw x y n).Sized := by
  obtain ⟨hsane, hlength, hrest⟩ := hsized
  exact ⟨hsane, (setReg_V_length _ vf _).trans hlength, hrest⟩

theorem flagByte_eq_one_iff (c : Bool) : flagByte c = 1#8 ↔ c = true := by cases c <;> decide

theorem flagByte_eq_zero_iff (c : Bool) : flagByte c = 0#8 ↔ c = false := by cases c <;> decide

/-- The collision flag (R205, R209). -/
theorem hit_drawn_iff {s : State} (hshape : s.fb.shaped s.params = true) (x y : Reg) (n : Nibble) :
    (s.drawn x y n).hit = true ↔ OnScreen s.params fun R C => s.spriteBit x y n R C = true ∧ s.fb.pixel R C = true := by
  simp [(drawn_xorsTo hshape x y n).hit]

/-- Settles O52: the parts of the closed form of the canvas, which DRW writes back with its collision flag. -/
theorem drawIsXorOfSprite : Obligations.DrawIsXorOfSprite := by
  intro x y n s hsized hshape hfits
  have hxors := drawn_xorsTo hshape x y n
  have hflag := reg_afterDrw_vf hsized x y n
  refine ⟨s.afterDrw x y n, exec_drw_fits hfits x y, hxors.shaped, hxors.pixel, fun hmeets => ?_, fun hmisses => ?_,
    hxors.dirty, fun j hj => reg_afterDrw_other s x y n hj, fun _ _ => rfl, rfl, ⟨rfl, rfl, rfl, rfl⟩,
    ⟨rfl, rfl, rfl, rfl, rfl⟩, ⟨rfl, rfl, rfl, rfl⟩⟩
  · rw [hflag, flagByte_eq_one_iff]
    exact (hit_drawn_iff hshape x y n).2 hmeets
  · rw [hflag, flagByte_eq_zero_iff, ← Bool.not_eq_true, hit_drawn_iff hshape x y n]
    rintro ⟨R, C, hR, hC, hbit, hon⟩
    exact Bool.false_ne_true ((hmisses R C hR hC hbit).symm.trans hon)

/-! ### Drawing twice -/

/-- DRW leaves its own sprite where it was, unless its origin is read from VF (R210). -/
theorem spriteBit_afterDrw (s : State) {x y : Reg} (hx : x ≠ vf) (hy : y ≠ vf) (n : Nibble) :
    (s.afterDrw x y n).spriteBit x y n = s.spriteBit x y n := by
  have hcol : (s.afterDrw x y n).spriteCol x = s.spriteCol x := by
    simp only [State.spriteCol, State.regNat, reg_afterDrw_other s x y n hx]
    rfl
  have hrow : (s.afterDrw x y n).spriteRow y = s.spriteRow y := by
    simp only [State.spriteRow, State.regNat, reg_afterDrw_other s x y n hy]
    rfl
  rw [spriteBit_eq_blockBit, hcol, hrow]
  rfl

/-- The second draw XORs the same bits into what the first left. -/
theorem drawn_afterDrw_xorsTo {s : State} (hshape : s.fb.shaped s.params = true) {x y : Reg} (hx : x ≠ vf) (hy : y ≠ vf)
    (n : Nibble) :
    Canvas.XorsTo s.params (s.spriteBit x y n) { s.drawn x y n with hit := false } ((s.afterDrw x y n).drawn x y n) :=
  spriteBit_afterDrw s hx hy n ▸ drawn_xorsTo (s := s.afterDrw x y n) (drawn_xorsTo hshape x y n).shaped x y n

/-- Settles O53: `(p ^^ b) ^^ b = p`, and a set bit's pixel that the first draw leaves on is one that it found off. -/
theorem drawTwiceRestoresScreen : Obligations.DrawTwiceRestoresScreen := by
  intro x y n s hsized hx hy hshape hfits
  have hfirst := drawn_xorsTo hshape x y n
  have hsecond := drawn_afterDrw_xorsTo hshape hx hy n
  refine ⟨s.afterDrw x y n, (s.afterDrw x y n).afterDrw x y n, exec_drw_fits hfits x y,
    exec_drw_fits (s := s.afterDrw x y n) hfits x y, fun R C hR hC => ?_, fun hlands => hsecond.dirty.2 (.inr hlands), ?_⟩
  · calc ((s.afterDrw x y n).drawn x y n).fb.pixel R C
        = ((s.drawn x y n).fb.pixel R C ^^ s.spriteBit x y n R C) := hsecond.pixel R C hR hC
      _ = ((s.fb.pixel R C ^^ s.spriteBit x y n R C) ^^ s.spriteBit x y n R C) := by rw [hfirst.pixel R C hR hC]
      _ = s.fb.pixel R C := by simp
  · rw [reg_afterDrw_vf (sized_afterDrw hsized x y n), flagByte_eq_one_iff, hsecond.hit]
    simp only [Bool.false_eq_true, false_or]
    refine onScreen_congr fun R C hR hC => and_congr_right fun hbit => ?_
    rw [hfirst.pixel R C hR hC, hbit]
    simp

end Sys2Proof.Machine
end

section
/-!
Timers and keyboard (spec/45_timer_keyboard.md R230 to R236): the two rows of a block that waits for a key and the port that
has lost its sender, then the key tests, the timer moves and the issue of the wait.
-/

namespace Sys2Proof.Machine

/-! ### The receipt of a key -/

/-- T7, no key yet: the block takes no part in the step. -/
theorem step_waiting_of_no_key {s : State} {x : Reg} (hrun : s.run = .waitingKey x) (hphase : s.phase = .inFrame)
    (hkey : s.envTurn.ports.deliveredKey = none) : step s = .next s.envTurn := by
  rcases schedule_waitingInFrame hrun hphase with ⟨k, hsome, -⟩ | ⟨-, hstay⟩
  · simp [hkey] at hsome
  · exact step_of_settled hstay

/-- T7, a key is handed over. -/
theorem step_waiting_of_key {s : State} {x : Reg} {k : Nat} (hrun : s.run = .waitingKey x) (hphase : s.phase = .inFrame)
    (hkey : s.envTurn.ports.deliveredKey = some k) : step s = .next (s.envTurn.receiveKey x k) := by
  rcases schedule_waitingInFrame hrun hphase with ⟨j, hsome, hreceipt⟩ | ⟨hnone, -⟩
  · cases hkey.symm.trans hsome
    exact step_of_settled hreceipt
  · simp [hkey] at hnone

/-- The registers after a receipt are those after the write of the key. -/
theorem reg_receiveKey (s : State) (x : Reg) (k : Nat) (j : Reg) :
    (s.receiveKey x k).reg j = (s.setReg x (BitVec.ofNat 8 k)).reg j := rfl

theorem reg_receiveKey_same {s : State} (h : s.Sized) (x : Reg) {k : Nat} (hk : k < 256) :
    ((s.receiveKey x k).reg x).toNat = k := by
  rw [reg_receiveKey, reg_setReg_same (named_of_sized h x)]
  exact Nat.mod_eq_of_lt hk

theorem regsKept_receiveKey (s : State) (x : Reg) (k : Nat) : RegsKept s (s.receiveKey x k) (fun j => j = x) :=
  fun _ hj => reg_setReg_other s _ hj

/-- Settles O12: the two clauses are T7 and the wait, over the state after the environment's turn. -/
theorem keyReceipt : Obligations.KeyReceipt := by
  intro s x hsized hrun hphase
  refine ⟨step_waiting_of_no_key hrun hphase, fun k hkey hk => ?_⟩
  have hreg : ((s.envTurn.receiveKey x k).reg x).toNat = k := reg_receiveKey_same (s := s.envTurn) hsized x hk
  exact ⟨_, step_waiting_of_key hrun hphase hkey, hreg, rfl, rfl, rfl, regsKept_receiveKey s.envTurn x k, fun _ _ => rfl,
    rfl, rfl, rfl, ⟨rfl, rfl⟩, ⟨rfl, rfl, rfl, rfl, rfl⟩, rfl, rfl, rfl⟩

/-! ### The wait without a sender -/

/-- No move of the environment connects the key-event port again (spec/60_exceptions.md R260). -/
theorem move_keeps_keyEventDown {c : Params} {waiting : Bool} {p : Ports} (h : p.keyEventUp = false) (m : EnvMove) :
    (p.move c waiting m).keyEventUp = false := by
  cases m with
  | offerKeys | deliverKey | takeSound | takeFrame => exact h
  | disconnect port =>
    cases port with
    | keyEvent => rfl
    | keyLevel | sound | frame => exact h

theorem moves_keep_keyEventDown {c : Params} {waiting : Bool} (moves : List EnvMove) : ∀ p : Ports, p.keyEventUp = false →
    (moves.foldl (Ports.move c waiting) p).keyEventUp = false := by
  induction moves with
  | nil => exact fun _ h => h
  | cons m moves ih => exact fun p h => ih _ (move_keeps_keyEventDown h m)

theorem envTurn_keeps_keyEventDown {s : State} (h : s.ports.keyEventUp = false) : s.envTurn.ports.keyEventUp = false :=
  moves_keep_keyEventDown _ _ h

/-- A port without a sender never delivers (decision D17). -/
theorem deliveredKey_of_keyEventDown {p : Ports} (h : p.keyEventUp = false) : p.deliveredKey = none := by
  simp [Ports.deliveredKey, h]

/-- The block waits for a key that no sender can deliver. -/
def State.WaitsInVain (x : Reg) (s : State) : Prop :=
  s.run = .waitingKey x ∧ s.phase = .inFrame ∧ s.ports.keyEventUp = false

theorem step_of_waitsInVain {x : Reg} {s : State} (h : s.WaitsInVain x) : step s = .next s.envTurn := by
  obtain ⟨hrun, hphase, hdown⟩ := h
  exact step_waiting_of_no_key hrun hphase (deliveredKey_of_keyEventDown (envTurn_keeps_keyEventDown hdown))

theorem envTurn_keeps_waitsInVain {x : Reg} {s : State} (h : s.WaitsInVain x) : s.envTurn.WaitsInVain x := by
  obtain ⟨hrun, hphase, hdown⟩ := h
  exact ⟨hrun, hphase, envTurn_keeps_keyEventDown hdown⟩

/-- Settles O14: the turn keeps the wait in vain, so every step is the turn alone. -/
theorem waitWithoutSenderNeverEnds : Obligations.WaitWithoutSenderNeverEnds := fun k s x hrun hphase hdown =>
  run_stays (P := State.WaitsInVain x) (fun _ => step_of_waitsInVain) (fun _ => envTurn_keeps_waitsInVain) k s
    ⟨hrun, hphase, hdown⟩

/-! ### Key tests -/

theorem exec_skp_of_key {x : Reg} {s : State} (h : (s.reg x).toNat < s.params.nkeys) :
    exec (.skp x) s = .next (s.skipIf (s.keyDown (s.reg x))) :=
  withKeyIndex_in h _ _

theorem exec_sknp_of_key {x : Reg} {s : State} (h : (s.reg x).toNat < s.params.nkeys) :
    exec (.sknp x) s = .next (s.skipIf (!s.keyDown (s.reg x))) :=
  withKeyIndex_in h _ _

/-- A skip on the condition's negation advances pc where the condition fails. -/
theorem skipIf_not_pc (s : State) (c : Bool) :
    (s.skipIf !c).pc = if c then s.pc else narrow s.params.pcWidth (s.pc + 2) := by
  cases c with
  | false => rfl
  | true => rfl

/-- Settles O54: SKP is `skipIf` of the key's flag, SKNP of its negation. -/
theorem keySkips : Obligations.KeySkips := fun x s hkey =>
  ⟨⟨_, exec_skp_of_key hkey, skipIf_pc s (s.keyDown (s.reg x)), onlyPcChanges_skipIf s _⟩,
    ⟨_, exec_sknp_of_key hkey, skipIf_not_pc s (s.keyDown (s.reg x)), onlyPcChanges_skipIf s _⟩⟩

/-- A key-index check that fails faults with the value checked (R230, decision D2). -/
theorem faultsWith_withKeyIndex_above {k : Byte} {s : State} (h : s.params.nkeys ≤ k.toNat) (i : Instr)
    (o : Host.Outcome State Fault Refusal) :
    FaultsWith (withKeyIndex k i s o) s .keyIndexOutOfRange (encode i) k.toNat := by
  rw [withKeyIndex_above h]
  exact faultsWith_raise _ _ _ s

/-- Settles O55: both tests check V[x] before they look at a key. -/
theorem keyIndexAboveFifteenFaults : Obligations.KeyIndexAboveFifteenFaults := fun _ _ habove =>
  ⟨faultsWith_withKeyIndex_above habove _ _, faultsWith_withKeyIndex_above habove _ _⟩

/-! ### Timer moves -/

/-- A sane timer holds every byte (spec/10_state.md R26, R27). -/
theorem byte_fits_timer {p : Params} (hsane : p.Sane) (v : Byte) : narrow p.timerWidth v.toNat = v.toNat := by
  obtain ⟨-, -, -, -, -, -, hwidth, -⟩ := hsane
  exact narrow_of_fits (k := 8) v.isLt hwidth

/-- Settles O56: neither direction reduces the value, a byte in a timer or a sized DT in a byte. -/
theorem timerMoves : Obligations.TimerMoves := by
  intro x s hsized
  obtain ⟨hreg, hframe⟩ := setReg_writes hsized x (BitVec.ofNat 8 s.DT)
  obtain ⟨hsane, -, -, -, hDT, -⟩ := hsized
  have hread : ((s.setReg x (BitVec.ofNat 8 s.DT)).reg x).toNat = s.DT := by
    rw [hreg]
    exact Nat.mod_eq_of_lt hDT
  have hfits : narrow s.params.timerWidth (s.reg x).toNat = (s.reg x).toNat := byte_fits_timer hsane (s.reg x)
  exact ⟨⟨_, rfl, hread, hframe⟩,
    ⟨_, rfl, hfits, fun _ _ => rfl, fun _ _ => rfl, rfl, rfl, rfl, rfl, ⟨rfl, rfl⟩, ⟨rfl, rfl, rfl, rfl, rfl⟩,
      ⟨rfl, rfl, rfl, rfl⟩⟩,
    ⟨_, rfl, hfits, fun _ _ => rfl, fun _ _ => rfl, rfl, rfl, rfl, rfl, ⟨rfl, rfl⟩, ⟨rfl, rfl, rfl, rfl, rfl⟩,
      ⟨rfl, rfl, rfl, rfl⟩⟩⟩

/-! ### The issue of the wait -/

/-- The state after the issue of a key wait (R235). -/
def State.afterKeyWait (s : State) (x : Reg) : State := { s.flush.emit (.keyWait x) with run := .waitingKey x }

theorem exec_ldVxK (x : Reg) (s : State) : exec (.ldVxK x) s = .next (s.afterKeyWait x) := rfl

/-- The frame, if there is one, stands before the wait in the trace. -/
theorem afterKeyWait_trace (s : State) (x : Reg) :
    (s.afterKeyWait x).trace = s.trace ++ (if s.dirty then [.frameOut s.fb] else []) ++ [.keyWait x] :=
  congrArg (· ++ [Event.keyWait x]) (flush_trace s)

/-- The wait itself is offered to no port (spec/90_conflicts.md C5). -/
theorem afterKeyWait_ports (s : State) (x : Reg) : (s.afterKeyWait x).ports = s.flush.ports := rfl

/-- Settles O57: every other field is what the flush leaves. -/
theorem keyWaitFlushesThenWaits : Obligations.KeyWaitFlushesThenWaits := by
  intro x s
  have hregs : RegsKept s (s.afterKeyWait x) noReg := fun j _ => reg_of_V (flush_V s) j
  have hbytes : BytesKept s (s.afterKeyWait x) noByte := fun a _ => byte_congr (flush_mem s) (flush_params s) a
  exact ⟨s.afterKeyWait x, exec_ldVxK x s, rfl, flush_dirty s, afterKeyWait_trace s x,
    (afterKeyWait_ports s x).trans (flush_ports s), flush_fb s, hregs, hbytes, flush_pc s,
    ⟨flush_I s, flush_SP s, flush_DT s, flush_ST s⟩,
    ⟨flush_keys s, flush_len s, flush_slot s, flush_phase s, flush_params s⟩, flush_env s⟩

end Sys2Proof.Machine
end

section
/-!
Output ports never feed back (spec/60_exceptions.md R260): every update of the state, the environment's turn among them, answers
the same block state and the same trace whatever the output ports hold. `s.forgetOutput` stands for all the states that differ
from `s` in the output ports alone, so it is enough to compare `s` with it.
-/

namespace Sys2Proof.Machine

/-! ### Ports -/

/-- The ports with the output side at the values of `State.forgetOutput`. -/
def Ports.forgetOutput (p : Ports) : Ports := { p with sound := 0, frames := [], soundUp := true, frameUp := true }

theorem forgetOutput_eq (s : State) : s.forgetOutput = { s with ports := s.ports.forgetOutput } := rfl

/-- An offer is seen on the output side alone. -/
theorem forgetOutput_offer (c : Params) (p : Ports) (e : Event) : (p.offer c e).forgetOutput = p.forgetOutput := by
  cases e <;> rfl

/-- A move of the environment reads only the port that it is made at. -/
theorem forgetOutput_move (c : Params) (waiting : Bool) (p : Ports) (m : EnvMove) :
    (p.forgetOutput.move c waiting m).forgetOutput = (p.move c waiting m).forgetOutput := by
  cases m with
  | disconnect port => cases port <;> rfl
  | offerKeys | deliverKey | takeSound | takeFrame => rfl

theorem forgetOutput_moves (c : Params) (waiting : Bool) (moves : List EnvMove) : ∀ p : Ports,
    (moves.foldl (Ports.move c waiting) p.forgetOutput).forgetOutput =
      (moves.foldl (Ports.move c waiting) p).forgetOutput := by
  induction moves with
  | nil => exact fun _ => rfl
  | cons m moves ih =>
    intro p
    rw [List.foldl_cons, List.foldl_cons, ← ih, forgetOutput_move, ih]

/-! ### States -/

/-- An update of the state gives states that differ in the output ports alone from states that do. -/
def IgnoresOutput (f : State → State) : Prop := ∀ s, (f s.forgetOutput).forgetOutput = (f s).forgetOutput

theorem IgnoresOutput.congr {f : State → State} (h : IgnoresOutput f) {s t : State}
    (hst : s.forgetOutput = t.forgetOutput) : (f s).forgetOutput = (f t).forgetOutput := by
  rw [← h s, hst, h t]

theorem IgnoresOutput.comp {f g : State → State} (hg : IgnoresOutput g) (hf : IgnoresOutput f) :
    IgnoresOutput (fun s => g (f s)) :=
  fun s => hg.congr (hf s)

theorem envTurn_ignoresOutput : IgnoresOutput State.envTurn := fun s =>
  congrArg (fun p : Ports => { s.envTurn with ports := p })
    (forgetOutput_moves s.params s.run.isWaiting s.env.coming s.ports)

/-- An event enters the trace, whatever its port does with it. -/
theorem forgetOutput_emit (s : State) (e : Event) :
    (s.emit e).forgetOutput = { s.forgetOutput with trace := s.trace ++ [e] } :=
  congrArg (fun p : Ports => { s with trace := s.trace ++ [e], ports := p }) (forgetOutput_offer s.params s.ports e)

theorem emit_ignoresOutput (e : Event) : IgnoresOutput (fun s => s.emit e) := fun s =>
  (forgetOutput_emit s.forgetOutput e).trans (forgetOutput_emit s e).symm

/-- A choice of two updates, by a condition that the output ports have no part in. -/
theorem IgnoresOutput.ite {c : State → Prop} [DecidablePred c] {f g : State → State} (hf : IgnoresOutput f)
    (hg : IgnoresOutput g) (hc : ∀ s : State, c s.forgetOutput ↔ c s) :
    IgnoresOutput (fun s => if c s then f s else g s) := by
  intro s
  by_cases h : c s
  · simpa only [if_pos h, if_pos ((hc s).2 h)] using hf s
  · simpa only [if_neg h, if_neg (mt (hc s).1 h)] using hg s

theorem id_ignoresOutput : IgnoresOutput (fun s => s) := fun _ => rfl

theorem flush_ignoresOutput : IgnoresOutput State.flush :=
  .ite (c := fun s => s.dirty = true)
    (fun s => congrArg (fun t : State => { t with dirty := false }) (emit_ignoresOutput (.frameOut s.fb) s))
    id_ignoresOutput fun _ => .rfl

theorem tickDT_ignoresOutput : IgnoresOutput State.tickDT :=
  .ite (c := fun s => s.DT = 0) id_ignoresOutput (fun _ => rfl) fun _ => .rfl

theorem tickST_ignoresOutput : IgnoresOutput State.tickST :=
  .ite (c := fun s => s.ST = 0) id_ignoresOutput
    (fun s => congrArg (fun t : State => { t with ST := s.ST - 1 }) (emit_ignoresOutput .sound s)) fun _ => .rfl

theorem frameStart_ignoresOutput : IgnoresOutput State.frameStart :=
  .ite (c := fun s => s.pc < s.progEnd) (fun _ => rfl) (fun _ => rfl) fun _ => .rfl

theorem frameFinish_ignoresOutput : IgnoresOutput State.frameFinish := fun s =>
  congrArg (fun t : State => { t with phase := .frameHead })
    ((flush_ignoresOutput.comp (tickST_ignoresOutput.comp tickDT_ignoresOutput)) s)

/-! ### Instructions -/

/-- A meaning answers outcomes that differ in the output ports alone in states that do. -/
def OutcomeIgnoresOutput (f : State → Host.Outcome State Fault Refusal) : Prop :=
  ∀ s, forgetOutcome (f s.forgetOutput) = forgetOutcome (f s)

theorem OutcomeIgnoresOutput.congr {f : State → Host.Outcome State Fault Refusal} (h : OutcomeIgnoresOutput f) {s t : State}
    (hst : s.forgetOutput = t.forgetOutput) : forgetOutcome (f s) = forgetOutcome (f t) := by
  rw [← h s, hst, h t]

theorem IgnoresOutput.next {f : State → State} (h : IgnoresOutput f) : OutcomeIgnoresOutput (fun s => .next (f s)) :=
  fun s => congrArg Host.Outcome.next (h s)

theorem setRF_ignoresOutput (x : Reg) (r : Byte) (f : Bool) : IgnoresOutput (fun s => s.setRF x r f) :=
  .ite (c := fun s => s.params.vfLast = true) (fun _ => rfl) (fun _ => rfl) fun _ => .rfl

theorem skipIf_ignoresOutput (c : Bool) : IgnoresOutput (fun s => s.skipIf c) :=
  .ite (c := fun _ => c = true) (fun _ => rfl) (fun _ => rfl) fun _ => .rfl

/-- A fault's record names nothing of the output ports. -/
theorem forgetOutcome_raise (kind : FaultKind) (info : Nat) (i : Instr) (s : State) :
    forgetOutcome (raise kind info i s.forgetOutput) = forgetOutcome (raise kind info i s) := rfl

theorem forgetOutcome_withRange {o o' : Host.Outcome State Fault Refusal} (h : forgetOutcome o' = forgetOutcome o)
    (base count : Nat) (i : Instr) (s : State) :
    forgetOutcome (withRange base count i s.forgetOutput o') = forgetOutcome (withRange base count i s o) := by
  by_cases hfits : base + count ≤ s.params.memSize
  · rwa [withRange_fits (s := s.forgetOutput) hfits, withRange_fits hfits]
  · have hpast : s.params.memSize < base + count := Nat.lt_of_not_le hfits
    rw [withRange_past (s := s.forgetOutput) hpast, withRange_past hpast]
    exact forgetOutcome_raise _ _ i s

theorem forgetOutcome_withKeyIndex {o o' : Host.Outcome State Fault Refusal} (h : forgetOutcome o' = forgetOutcome o)
    (k : Byte) (i : Instr) (s : State) :
    forgetOutcome (withKeyIndex k i s.forgetOutput o') = forgetOutcome (withKeyIndex k i s o) := by
  by_cases hkey : k.toNat < s.params.nkeys
  · rwa [withKeyIndex_in (s := s.forgetOutput) hkey, withKeyIndex_in hkey]
  · have habove : s.params.nkeys ≤ k.toNat := Nat.le_of_not_lt hkey
    rw [withKeyIndex_above (s := s.forgetOutput) habove, withKeyIndex_above habove]
    exact forgetOutcome_raise _ _ i s

theorem forgetOutcome_ite {c : Prop} [Decidable c] {o₁ o₁' o₂ o₂' : Host.Outcome State Fault Refusal}
    (h₁ : forgetOutcome o₁' = forgetOutcome o₁) (h₂ : forgetOutcome o₂' = forgetOutcome o₂) :
    forgetOutcome (if c then o₁' else o₂') = forgetOutcome (if c then o₁ else o₂) := by
  split
  · exact h₁
  · exact h₂

theorem afterKeyWait_ignoresOutput (x : Reg) : IgnoresOutput (fun s => s.afterKeyWait x) := fun s =>
  congrArg (fun t : State => { t with run := .waitingKey x }) ((emit_ignoresOutput (.keyWait x)).comp flush_ignoresOutput s)

/-- Every instruction, each by the checks and the update that it consists of. -/
theorem exec_ignoresOutput (i : Instr) : OutcomeIgnoresOutput (exec i) := by
  intro s
  cases i with
  | ret | drw => exact forgetOutcome_ite rfl (forgetOutcome_withRange (by rfl) _ _ _ s)
  | addI => exact forgetOutcome_ite rfl rfl
  | call | ldB | storeRegs | loadRegs => exact forgetOutcome_withRange (by rfl) _ _ _ s
  | skp | sknp => exact forgetOutcome_withKeyIndex ((skipIf_ignoresOutput _).next s) _ _ s
  | seImm | sneImm | seReg | sneReg => exact (skipIf_ignoresOutput _).next s
  | addReg | subReg | shr | subbReg | shl => exact (setRF_ignoresOutput _ _ _).next s
  | ldVxK x => exact (afterKeyWait_ignoresOutput x).next s
  | noop0 | noop8 | noopE | noopF => exact (emit_ignoresOutput _).next s
  | _ => rfl

/-! ### Steps -/

/-- What a move of the block answers. -/
def Move.outcome : Move → Host.Outcome State Fault Refusal
  | .settled o => o
  | .execute i s => exec i s

/-- A step is the environment's turn, then the block's row (R100). -/
theorem step_eq_outcome (s : State) : step s = s.envTurn.blockMove.outcome := rfl

/-- The slot that runs: the fetch reads memory and the drain the input side. -/
theorem beginSlot_ignoresOutput : OutcomeIgnoresOutput (fun s => s.beginSlot.outcome) := by
  intro s
  by_cases hfits : s.pc + 2 ≤ s.params.memSize
  · simp only [beginSlot_fits (e := s.forgetOutput) hfits, beginSlot_fits hfits]
    exact exec_ignoresOutput _ s.slotEntry
  · have hpast : s.params.memSize < s.pc + 2 := Nat.lt_of_not_le hfits
    simp only [beginSlot_past (e := s.forgetOutput) hpast, beginSlot_past hpast]
    rfl

@[simp] theorem forgetOutput_phase (s : State) : s.forgetOutput.phase = s.phase := rfl

@[simp] theorem forgetOutput_run (s : State) : s.forgetOutput.run = s.run := rfl

/-- A key is handed over on the input side. -/
@[simp] theorem forgetOutput_deliveredKey (s : State) : s.forgetOutput.ports.deliveredKey = s.ports.deliveredKey := rfl

/-- T1 to T6. -/
theorem runningMove_ignoresOutput : OutcomeIgnoresOutput (fun s => s.runningMove.outcome) := by
  intro s
  simp only [State.runningMove, forgetOutput_phase]
  cases s.phase with
  | frameHead => exact frameStart_ignoresOutput.next s
  | inFrame =>
    simp only [apply_ite Move.outcome]
    exact forgetOutcome_ite (forgetOutcome_ite (beginSlot_ignoresOutput s) rfl) (forgetOutcome_ite rfl rfl)
  | frameTail => exact frameFinish_ignoresOutput.next s

/-- T7, and the wait without a key. -/
theorem waitingMove_ignoresOutput (x : Reg) : OutcomeIgnoresOutput (fun s => (s.waitingMove x).outcome) := by
  intro s
  simp only [State.waitingMove, forgetOutput_phase, forgetOutput_deliveredKey]
  cases s.phase with
  | frameHead | frameTail => rfl
  | inFrame => cases s.ports.deliveredKey <;> rfl

theorem blockMove_ignoresOutput : OutcomeIgnoresOutput (fun s => s.blockMove.outcome) := by
  intro s
  simp only [State.blockMove, forgetOutput_run]
  cases s.run with
  | running => exact runningMove_ignoresOutput s
  | waitingKey x => exact waitingMove_ignoresOutput x s
  | halted | faulted => rfl

theorem step_ignoresOutput : OutcomeIgnoresOutput step := by
  intro s
  rw [step_eq_outcome, step_eq_outcome]
  exact blockMove_ignoresOutput.congr (envTurn_ignoresOutput s)

/-- Settles O18: the turn, the choice of the row and the row itself each ignore the output ports. -/
theorem outputPortsNeverFeedBack : Obligations.OutputPortsNeverFeedBack := fun _ _ => step_ignoresOutput.congr

end Sys2Proof.Machine
end

section
/-!
Faults (spec/60_exceptions.md R250 to R253). The table of faults as the model raises them, and the one lemma about `exec` that
the rules are read off: an instruction raises a fault that the table gives it, and nothing else, or does not fault.
-/

namespace Sys2Proof.Machine

/-- `Raises s i kind info`: instruction `i`, executed in `s`, raises `kind(info)`. One constructor a check that can fail. -/
inductive Raises (s : State) : Instr → FaultKind → Nat → Prop
  | emptyStack (x : Nibble) (h : s.SP = 0) : Raises s (.ret x) .stackUnderflow (s.pc - 2)
  | popPast (x : Nibble) (h : s.params.memSize < s.SP + 2) :
      Raises s (.ret x) .memoryOutOfRange (max s.SP s.params.memSize)
  | pushPast (nnn : Addr12) (h : s.params.memSize < s.SP + 2 + 2) :
      Raises s (.call nnn) .memoryOutOfRange (max (s.SP + 2) s.params.memSize)
  | drawPast (x y : Reg) (n : Nibble) (hn : n ≠ 0#4) (h : s.params.memSize < s.I + n.toNat) :
      Raises s (.drw x y n) .memoryOutOfRange (max s.I s.params.memSize)
  | bcdPast (x : Reg) (h : s.params.memSize < s.I + 3) : Raises s (.ldB x) .memoryOutOfRange (max s.I s.params.memSize)
  | blockPast {i : Instr} (x : Reg) (hi : i = .storeRegs x ∨ i = .loadRegs x)
      (h : s.params.memSize < s.I + (x.toNat + 1)) : Raises s i .memoryOutOfRange (max s.I s.params.memSize)
  | keyAbove {i : Instr} (x : Reg) (hi : i = .skp x ∨ i = .sknp x) (h : s.params.nkeys ≤ (s.reg x).toNat) :
      Raises s i .keyIndexOutOfRange (s.reg x).toNat
  | indexAbove (x : Reg) (h : 2 ^ s.params.iWidth ≤ s.I + (s.reg x).toNat) :
      Raises s (.addI x) .indexOverflow (s.I + (s.reg x).toNat)

/-- The outcome of `i` in `s` is a fault of the table, or a state that is not Faulted where `s` is not. -/
def RaisesOrRuns (s : State) (i : Instr) (o : Host.Outcome State Fault Refusal) : Prop :=
  (∃ kind info, Raises s i kind info ∧ o = raise kind info i s) ∨ ∃ t, o = .next t ∧ (s.Safe → t.Safe)

theorem raisesOrRuns_of_raises {s : State} {i : Instr} {kind : FaultKind} {info : Nat} (h : Raises s i kind info) :
    RaisesOrRuns s i (raise kind info i s) := .inl ⟨kind, info, h, rfl⟩

/-- A state with the run state of `s` is no new fault. -/
theorem raisesOrRuns_next {s t : State} (h : t.run = s.run) (i : Instr) : RaisesOrRuns s i (.next t) :=
  .inr ⟨t, rfl, fun hsafe r => by rw [h]; exact hsafe r⟩

theorem raisesOrRuns_withRange {s t : State} {i : Instr} {base count : Nat} (h : t.run = s.run)
    (hpast : s.params.memSize < base + count → Raises s i .memoryOutOfRange (max base s.params.memSize)) :
    RaisesOrRuns s i (withRange base count i s (.next t)) := by
  rcases withRange_cases base count i s (.next t) with ⟨-, heq⟩ | ⟨hrange, heq⟩
  · rw [heq]
    exact raisesOrRuns_next h i
  · rw [heq]
    exact raisesOrRuns_of_raises (hpast hrange)

theorem raisesOrRuns_withKeyIndex {s t : State} {i : Instr} (x : Reg) (h : t.run = s.run)
    (hi : i = .skp x ∨ i = .sknp x) : RaisesOrRuns s i (withKeyIndex (s.reg x) i s (.next t)) := by
  by_cases hkey : (s.reg x).toNat < s.params.nkeys
  · rw [withKeyIndex_in hkey]
    exact raisesOrRuns_next h i
  · have habove : s.params.nkeys ≤ (s.reg x).toNat := Nat.le_of_not_lt hkey
    rw [withKeyIndex_above habove]
    exact raisesOrRuns_of_raises (.keyAbove x hi habove)

theorem execRet_raisesOrRuns (x : Nibble) (s : State) : RaisesOrRuns s (.ret x) (execRet x s) := by
  unfold execRet
  split
  · next hempty => exact raisesOrRuns_of_raises (.emptyStack x hempty)
  · exact raisesOrRuns_withRange rfl (.popPast x)

theorem execDrw_raisesOrRuns (x y : Reg) (n : Nibble) (s : State) : RaisesOrRuns s (.drw x y n) (execDrw x y n s) := by
  unfold execDrw
  split
  · exact raisesOrRuns_next (putCanvas_run s _) _
  · next hrows => exact raisesOrRuns_withRange rfl (.drawPast x y n hrows)

theorem execAddI_raisesOrRuns (x : Reg) (s : State) : RaisesOrRuns s (.addI x) (execAddI x s) := by
  unfold execAddI
  split
  · next habove => exact raisesOrRuns_of_raises (.indexAbove x habove)
  · exact raisesOrRuns_next (setI_run s _) _

/-- Every instruction raises a fault of the table or does not fault. -/
theorem exec_raisesOrRuns (i : Instr) (s : State) : RaisesOrRuns s i (exec i s) := by
  cases i with
  | ret x => exact execRet_raisesOrRuns x s
  | call nnn => exact raisesOrRuns_withRange rfl (.pushPast nnn)
  | drw x y n => exact execDrw_raisesOrRuns x y n s
  | ldB x => exact raisesOrRuns_withRange rfl (.bcdPast x)
  | storeRegs x => exact raisesOrRuns_withRange rfl (.blockPast x (.inl rfl))
  | loadRegs x => exact raisesOrRuns_withRange rfl (.blockPast x (.inr rfl))
  | skp x => exact raisesOrRuns_withKeyIndex x (skipIf_run s _) (.inl rfl)
  | sknp x => exact raisesOrRuns_withKeyIndex x (skipIf_run s _) (.inr rfl)
  | addI x => exact execAddI_raisesOrRuns x s
  | ldVxK x => exact .inr ⟨_, exec_ldVxK x s, fun _ => nofun⟩
  | _ => exact raisesOrRuns_next (by simp) _

/-- The inversion of a fault: the table gives it, and it leaves the record and nothing else. -/
theorem raises_of_exec {i : Instr} {s t : State} {r : FaultRecord} (hsafe : s.Safe) (hexec : exec i s = .next t)
    (hrun : t.run = .faulted r) :
    Raises s i r.kind r.info ∧ t = { s with run := .faulted r } ∧ r.addr = s.pc - 2 ∧ r.word = some (encode i) := by
  rcases exec_raisesOrRuns i s with ⟨kind, info, hraises, heq⟩ | ⟨u, heq, hkept⟩
  · rw [heq, raise_eq] at hexec
    cases hexec
    cases hrun
    exact ⟨hraises, rfl, rfl, rfl⟩
  · rw [heq] at hexec
    cases hexec
    exact absurd hrun (hkept hsafe r)

/-- Settles O23: the one way to a fault is `raise`. -/
theorem instructionFaultsArePrecise : Obligations.InstructionFaultsArePrecise := fun _ _ _ _ hsafe hexec hrun =>
  (raises_of_exec hsafe hexec hrun).2

/-- Settles O24: with a pair at SP inside memory no pop leaves it, and the pair above SP begins inside it. -/
theorem faultsAreThoseOfTheTable : Obligations.FaultsAreThoseOfTheTable := by
  intro i s t r hsafe _ hfits hexec hrun
  obtain ⟨hraises, -⟩ := raises_of_exec hsafe hexec hrun
  obtain ⟨kind, addr, word, info⟩ := r
  cases hraises with
  | emptyStack x hempty => exact .inr (.inr (.inl ⟨rfl, x, rfl, hempty, rfl⟩))
  | popPast x hpast => omega
  | pushPast nnn hpast => exact .inl ⟨rfl, .inl ⟨nnn, rfl, by omega, Nat.max_eq_right (by omega)⟩⟩
  | drawPast x y n hrows hpast =>
    have hpos : 0 < n.toNat := Nat.pos_of_ne_zero fun h => hrows (BitVec.eq_of_toNat_eq h)
    exact .inl ⟨rfl, .inr (.inl ⟨x, y, n, rfl, hpos, hpast, rfl⟩)⟩
  | bcdPast x hpast => exact .inl ⟨rfl, .inr (.inr (.inl ⟨x, rfl, by omega, rfl⟩))⟩
  | blockPast x hi hpast => exact .inl ⟨rfl, .inr (.inr (.inr ⟨x, hi, by omega, rfl⟩))⟩
  | keyAbove x hi habove => exact .inr (.inl ⟨rfl, x, hi, habove, rfl⟩)
  | indexAbove x habove => exact .inr (.inr (.inr ⟨rfl, x, rfl, habove, rfl⟩))

end Sys2Proof.Machine
end

section
/-!
The ports move by move (spec/60_exceptions.md R260, R261): what an offer of the block and a move of the environment leave in the
buffers, and what the block reads from them.
-/

namespace Sys2Proof.Machine

section
variable (c : Params) (p : Ports) (waiting : Bool)

/-! ### The block's offers -/

theorem offer_frameOut (grid : Grid) :
    p.offer c (.frameOut grid) =
      if p.frameUp = true ∧ p.frames.length < c.capFrame then { p with frames := p.frames ++ [grid] } else p := by
  by_cases h : p.frameUp = true ∧ p.frames.length < c.capFrame
  · simp [Ports.offer, h]
  · simp [Ports.offer, h]

theorem offer_sound :
    p.offer c .sound = if p.soundUp = true ∧ p.sound < c.capSound then { p with sound := p.sound + 1 } else p := by
  by_cases h : p.soundUp = true ∧ p.sound < c.capSound
  · simp [Ports.offer, h]
  · simp [Ports.offer, h]

/-! ### The environment's takes -/

theorem move_takeFrame_cons {grid : Grid} {rest : List Grid} (h : p.frames = grid :: rest) :
    p.move c waiting .takeFrame = { p with frames := rest } := by
  simp [Ports.move, h]

theorem move_takeFrame_nil (h : p.frames = []) : p.move c waiting .takeFrame = p := by
  cases p
  cases h
  rfl

theorem move_takeSound_succ {n : Nat} (h : p.sound = n + 1) :
    p.move c waiting .takeSound = { p with sound := n } := by
  simp [Ports.move, h]

theorem move_takeSound_zero (h : p.sound = 0) : p.move c waiting .takeSound = p := by
  cases p
  cases h
  rfl

/-! ### Key level -/

theorem lossyOffer_room {cap : Nat} {held : List KeyFlags} (h : held.length < cap) (replace : Bool) (v : KeyFlags) :
    lossyOffer cap replace v held = held ++ [v] :=
  if_pos h

/-- A full buffer of one place holds the new vector or the old one (decision D18). -/
theorem lossyOffer_full (replace : Bool) (u v : KeyFlags) :
    lossyOffer 1 replace v [u] = if replace then [v] else [u] := by
  cases replace <;> rfl

/-- An offer that the port takes part in: it is connected, and the vector is one of its kind. -/
theorem move_offerKeys {v : KeyFlags} (hup : p.keyLevelUp = true) (hv : v.length = c.nkeys) (replace : Bool) :
    p.move c waiting (.offerKeys v replace) =
      { p with keyLevels := lossyOffer c.capKeyLevel replace v p.keyLevels } := by
  simp [Ports.move, hup, hv]

theorem move_offerKeys_ignored {v : KeyFlags} (h : p.keyLevelUp = false ∨ v.length ≠ c.nkeys) (replace : Bool) :
    p.move c waiting (.offerKeys v replace) = p := by
  have hignored : ¬(p.keyLevelUp && decide (v.length = c.nkeys)) = true := by
    rcases h with hdown | hv
    · simp [hdown]
    · simp [hv]
  exact congrArg (fun levels => { p with keyLevels := levels }) (if_neg hignored)

theorem move_offerKeys_full {u v : KeyFlags} (hup : p.keyLevelUp = true) (hv : v.length = c.nkeys)
    (hcap : c.capKeyLevel = 1) (hheld : p.keyLevels = [u]) :
    p.move c waiting (.offerKeys v true) = { p with keyLevels := [v] } ∧ p.move c waiting (.offerKeys v false) = p := by
  rw [move_offerKeys c p waiting hup hv, move_offerKeys c p waiting hup hv, hcap, hheld, lossyOffer_full, lossyOffer_full]
  exact ⟨rfl, by rw [if_neg Bool.false_ne_true, ← hheld]⟩

theorem pendingKeys_of_up (hup : p.keyLevelUp = true) : p.pendingKeys = p.keyLevels.head? := if_pos hup

theorem pendingKeys_of_down (hdown : p.keyLevelUp = false) : p.pendingKeys = none := by
  simp [Ports.pendingKeys, hdown]

theorem pendingKeys_of_nil (h : p.keyLevels = []) : p.pendingKeys = none := by
  simp [Ports.pendingKeys, h]

/-! ### Key event -/

theorem move_deliverKey (k : Nat) :
    p.move c waiting (.deliverKey k) =
      if p.keyEventUp = true ∧ k < c.nkeys ∧ p.keyEvents.length < c.capKeyEvent + (if waiting = true then 1 else 0) then
        { p with keyEvents := p.keyEvents ++ [k] }
      else p := by
  have hplace : (if waiting = true then 1 else 0) = waiting.toNat := by cases waiting <;> rfl
  rw [hplace]
  by_cases h : p.keyEventUp = true ∧ k < c.nkeys ∧ p.keyEvents.length < c.capKeyEvent + waiting.toNat
  · simp [Ports.move, h]
  · rw [if_neg h]
    refine congrArg (fun events => { p with keyEvents := events }) (if_neg ?_)
    simpa [and_assoc] using h

theorem deliveredKey_of_keyEventUp (hup : p.keyEventUp = true) : p.deliveredKey = p.keyEvents.head? := if_pos hup

theorem deliveredKey_of_nil (h : p.keyEvents = []) : p.deliveredKey = none := by
  simp [Ports.deliveredKey, h]

/-! ### Connections -/

/-- No move connects a port again (log entry 7). -/
theorem move_keeps_down (m : EnvMove) :
    (p.keyLevelUp = false → (p.move c waiting m).keyLevelUp = false) ∧
      (p.keyEventUp = false → (p.move c waiting m).keyEventUp = false) ∧
      (p.soundUp = false → (p.move c waiting m).soundUp = false) ∧
      (p.frameUp = false → (p.move c waiting m).frameUp = false) := by
  cases m with
  | offerKeys | deliverKey | takeSound | takeFrame => exact ⟨id, id, id, id⟩
  | disconnect port =>
    cases port with
    | keyLevel => exact ⟨fun _ => rfl, id, id, id⟩
    | keyEvent => exact ⟨id, fun _ => rfl, id, id⟩
    | sound => exact ⟨id, id, fun _ => rfl, id⟩
    | frame => exact ⟨id, id, id, fun _ => rfl⟩

end

/-- Settles O21: each clause is the port's own lemma; a disconnection is the update that its port's case names. -/
theorem portBufferRules : Obligations.PortBufferRules := fun c p =>
  ⟨offer_frameOut c p, offer_sound c p, fun _ => rfl, fun _ _ => rfl, fun b _ _ => move_takeFrame_cons c p b,
    move_takeFrame_nil c p, fun b _ => move_takeSound_succ c p b, move_takeSound_zero c p,
    fun b _ r hup hv hroom => by rw [move_offerKeys c p b hup hv, lossyOffer_room hroom],
    fun b _ _ => move_offerKeys_full c p b,
    fun b _ r h => move_offerKeys_ignored c p b h r,
    fun _ _ hup hheld => by rw [pendingKeys_of_up p hup, hheld, List.head?_cons],
    pendingKeys_of_nil p, pendingKeys_of_down p, move_keeps_down c p, fun _ port => by cases port <;> rfl,
    move_deliverKey c p,
    fun _ _ hup hheld => by rw [deliveredKey_of_keyEventUp p hup, hheld, List.head?_cons],
    deliveredKey_of_nil p, deliveredKey_of_keyEventDown⟩

end Sys2Proof.Machine
end

section
/-!
Program load (spec/70_reset_and_hazards.md R280, R281): the state that a fitting program is loaded into, what its memory reads
as, and the invariant, part by part.
-/

namespace Sys2Proof.Machine

/-- The state that `load` answers for a program that fits. -/
def loadedState (params : Params) (r : ResetState) (program : List Byte) : State :=
  { State.reset with
    mem := Memory.writeBlock params [] params.progBase program
    pc := narrow params.pcWidth params.progBase
    V := r.V, I := r.I, DT := r.DT, ST := r.ST, keys := r.keys, fb := r.fb, dirty := r.dirty
    len := program.length
    params := params }

section
variable {params : Params} {r : ResetState} {program : List Byte}

theorem load_of_fits (hfits : program.length ≤ params.progMax) :
    load params r program = .next (loadedState params r program) :=
  if_neg hfits.not_gt

theorem load_of_too_long (hlong : params.progMax < program.length) :
    load params r program = .refused (.programTooLong program.length) :=
  if_pos hlong

/-- A program of at most PROG_MAX bytes ends within memory (spec/10_state.md R31). -/
theorem progEnd_le_memSize (hsane : params.Sane) (hfits : program.length ≤ params.progMax) :
    params.progBase + program.length ≤ params.memSize := by
  obtain ⟨-, -, hprog, -⟩ := hsane
  omega

/-- PROG_BASE is a value that pc can take (log entry 9). -/
theorem progBase_lt_word (hsane : params.Sane) : params.progBase < 0x10000 := by
  obtain ⟨-, ⟨-, hmem⟩, hprog, -⟩ := hsane
  omega

theorem loadedState_pc (hsane : params.Sane) : (loadedState params r program).pc = params.progBase := by
  have hword := progBase_lt_word hsane
  obtain ⟨-, -, -, -, hwidth, -⟩ := hsane
  exact narrow_of_fits (k := 16) hword hwidth

/-! ### Memory -/

theorem byte_loadedState_program (hsane : params.Sane) (hfits : program.length ≤ params.progMax) (k : Nat)
    (hk : k < program.length) : (loadedState params r program).byte (params.progBase + k) = program[k] :=
  read_writeBlock program [] params.progBase k hk rfl (progEnd_le_memSize hsane hfits)

theorem byte_loadedState_outside {a : Nat} (ha : a < params.progBase ∨ params.progBase + program.length ≤ a) :
    (loadedState params r program).byte a = Memory.initial params a :=
  read_writeBlock_other program [] params.progBase a (by omega)

/-! ### The invariant -/

/-- Empty ports are within every capacity. -/
theorem within_empty (c : Params) (room : Nat) : Ports.empty.Within c room :=
  ⟨Nat.zero_le _, Nat.zero_le _, Nat.zero_le _, nofun, Nat.zero_le _, nofun, nofun⟩

/-- RESET_STATE has the sizes that the invariant asks of it (spec/10_state.md R20, R25 to R29). -/
structure ResetState.Fits (r : ResetState) (params : Params) : Prop where
  regs : r.V.length = params.nreg
  index : r.I < 2 ^ params.iWidth
  delay : r.DT < 256
  sound : r.ST < 256
  keys : r.keys.length = params.nkeys
  screen : r.fb.shaped params = true

theorem loadedState_data (hsane : params.Sane) (hr : r.Fits params) (hfits : program.length ≤ params.progMax) :
    (loadedState params r program).DataOk where
  sized := ⟨hsane, hr.regs, hr.index, (loadedState_pc hsane).trans_lt (progBase_lt_word hsane), hr.delay, hr.sound⟩
  memory := wf_writeBlock program [] params.progBase rfl (progEnd_le_memSize hsane hfits)
  program := hfits
  stackEven := rfl
  stackFits := by
    obtain ⟨-, ⟨hmem, -⟩, -⟩ := hsane
    exact hmem
  keysShape := hr.keys
  fbShape := hr.screen

theorem loadedState_inv (hsane : params.Sane) (hr : r.Fits params) (hfits : program.length ≤ params.progMax) :
    (loadedState params r program).Inv :=
  (inv_iff _).2 ⟨loadedState_data hsane hr hfits, controlOk_running rfl (Nat.zero_le _) nofun, within_empty params 0⟩

end

/-- Settles O20: a fitting program leaves `loadedState`, whose memory is a block written over the initial bytes; a longer one
fails the length check. -/
theorem loadPlacesProgramOrRefuses : Obligations.LoadPlacesProgramOrRefuses := by
  refine fun params r program => ⟨fun hfits => ⟨loadedState params r program, load_of_fits hfits, rfl, rfl, rfl, rfl, rfl,
    rfl, rfl, rfl, rfl, rfl, rfl, rfl, rfl, rfl, rfl, fun hsane => ⟨?_, loadedState_pc hsane, ?_⟩, ?_⟩, load_of_too_long⟩
  · exact byte_loadedState_program hsane hfits
  · exact fun hV hI hDT hST hkeys hfb => loadedState_inv hsane ⟨hV, hI, hDT, hST, hkeys, hfb⟩ hfits
  · exact fun _ => byte_loadedState_outside

end Sys2Proof.Machine
end
